-- ==== Sys2Proof/Word.lean ====
section
/-! DEFINITION. The word types of the spec (00_scope.md section 4: BYTE_W, DATA_W, CH_W, CMD_W, PW_IN_W) and the
`NONE` sentinel. -/

namespace Sys2Proof

/-- One transport byte (`BYTE_W` = 8). -/
abbrev Byte := BitVec 8

/-- The value of a data byte (`DATA_W` = 7, rule R61). -/
abbrev Data := BitVec 7

/-- A channel, 0..15 by construction (`CH_W` = 4, rule R72). -/
abbrev Chan := BitVec 4

/-- A 16-bit operand (`PW_IN_W` = 16). -/
abbrev Word16 := BitVec 16

/-- An encoder command word (`CMD_W` = 24, rule R72). -/
abbrev Word24 := BitVec 24

/-- `NONE`, the "no status" sentinel of a status register (00_scope.md section 4, decision D3). -/
abbrev NONE : Byte := 0x00#8

end Sys2Proof
end

