-- ==== Sys2Proof/Syntax.lean ====
section
/-! DEFINITION. The instructions: one constructor per row of spec/opcode_table.json. The decoder's instructions are the
classes of input byte (30_encoding.md rule R81); the encoder's are its commands (rule R73). Fields the spec calls
ignored are kept as syntax, so that no bit of an encoding is dropped, and no meaning reads them (log entry 10). -/

namespace Sys2Proof

/-- One constructor per row of spec/opcode_table.json, in the table's order. -/
inductive Instr where
  /-- RX_DATA, bytes 0x00..0x7F, rule R157. -/
  | rxData (d : Data)
  /-- RX_NOTE_OFF, bytes 0x80..0x8F, rule R142; the channel is ignored. -/
  | rxNoteOff (ch : Chan)
  /-- RX_NOTE_ON, bytes 0x90..0x9F, rule R143; the channel is ignored. -/
  | rxNoteOn (ch : Chan)
  /-- RX_POLY_AFTERTOUCH, bytes 0xA0..0xAF, rule R144; the channel is ignored. -/
  | rxPolyAftertouch (ch : Chan)
  /-- RX_CONTROL_CHANGE, bytes 0xB0..0xBF, rule R145; the channel is ignored. -/
  | rxControlChange (ch : Chan)
  /-- RX_PROGRAM_CHANGE, bytes 0xC0..0xCF, rule R146; the channel is ignored. -/
  | rxProgramChange (ch : Chan)
  /-- RX_CHANNEL_AFTERTOUCH, bytes 0xD0..0xDF, rule R147; the channel is ignored. -/
  | rxChannelAftertouch (ch : Chan)
  /-- RX_PITCH_WHEEL, bytes 0xE0..0xEF, rule R148; the channel is ignored. -/
  | rxPitchWheel (ch : Chan)
  /-- RX_SYSEX_START, byte 0xF0, rule R149. -/
  | rxSysexStart
  /-- RX_SC_F1, byte 0xF1, rule R150. -/
  | rxScF1
  /-- RX_SC_F2, byte 0xF2, rule R151. -/
  | rxScF2
  /-- RX_SC_F3, byte 0xF3, rule R152. -/
  | rxScF3
  /-- RX_SC_F4, byte 0xF4, rule R153. -/
  | rxScF4
  /-- RX_SC_F5, byte 0xF5, rule R154. -/
  | rxScF5
  /-- RX_TUNE_REQUEST, byte 0xF6, rule R155. -/
  | rxTuneRequest
  /-- RX_SYSEX_END, byte 0xF7, rule R156. -/
  | rxSysexEnd
  /-- RX_RT_TIMING_CLOCK, byte 0xF8, rule R133. -/
  | rxRtTimingClock
  /-- RX_RT_F9, byte 0xF9, rule R134. -/
  | rxRtF9
  /-- RX_RT_START, byte 0xFA, rule R135. -/
  | rxRtStart
  /-- RX_RT_CONTINUE, byte 0xFB, rule R136. -/
  | rxRtContinue
  /-- RX_RT_STOP, byte 0xFC, rule R137. -/
  | rxRtStop
  /-- RX_RT_FD, byte 0xFD, rule R138. -/
  | rxRtFd
  /-- RX_RT_ACTIVE_SENSING, byte 0xFE, rule R139. -/
  | rxRtActiveSensing
  /-- RX_RT_RESET, byte 0xFF, rule R140. -/
  | rxRtReset
  /-- NOTE_OFF, op 0x0, form C2, rule R103. -/
  | noteOff (ch : Chan) (key vel : Byte)
  /-- NOTE_ON, op 0x1, form C2, rule R104. -/
  | noteOn (ch : Chan) (key vel : Byte)
  /-- CONTROL_CHANGE, op 0x3, form C2, rule R105. -/
  | controlChange (ch : Chan) (ctl val : Byte)
  /-- CHANNEL_AFTERTOUCH, op 0x5, form C1, rule R106; `ignored` is `p[15:8]`. -/
  | channelAftertouch (ch : Chan) (ignored pressure : Byte)
  /-- PITCH_WHEEL, op 0x6, form CU, rule R107. -/
  | pitchWheel (ch : Chan) (v : Word16)
  /-- PITCH_WHEEL_SIGNED, op 0x7, form CS, rule R108; `sv` is `p` read as two's complement. -/
  | pitchWheelSigned (ch : Chan) (sv : Int)
  /-- RT_TIMING_CLOCK, op 0x8, form R, rule R111; `ch` and `p` are ignored. -/
  | rtTimingClock (ch : Chan) (p : Word16)
  /-- MOD_WHEEL, op 0x9, form CU, rule R109. -/
  | modWheel (ch : Chan) (v : Word16)
  /-- RT_START, op 0xA, form R, rule R112; `ch` and `p` are ignored. -/
  | rtStart (ch : Chan) (p : Word16)
  /-- RT_CONTINUE, op 0xB, form R, rule R113; `ch` and `p` are ignored. -/
  | rtContinue (ch : Chan) (p : Word16)
  /-- RT_STOP, op 0xC, form R, rule R114; `ch` and `p` are ignored. -/
  | rtStop (ch : Chan) (p : Word16)
  /-- RT_ACTIVE_SENSING, op 0xE, form R, rule R115; `ch` and `p` are ignored. -/
  | rtActiveSensing (ch : Chan) (p : Word16)
  /-- RT_RESET, op 0xF, form R, rule R116; `ch` and `p` are ignored. -/
  | rtReset (ch : Chan) (p : Word16)
  deriving DecidableEq, Repr

end Sys2Proof
end

