-- ==== Sys2Proof/WellFormed.lean ====
section
/-! DEFINITION. Which instructions are well formed. Every operand but one is a bit field held at its exact width; the
signed pitch-wheel operand is an integer, and form CS gives it 16 bits of two's complement (30_encoding.md rule R72). -/

namespace Sys2Proof

/-- The range of a form CS operand: −32768..32767 (rule R72). -/
def fitsSigned16 (v : Int) : Bool := decide (-32768 ≤ v ∧ v ≤ 32767)

/-- An instruction is well formed when its operands fit the fields of its encoding. -/
def Instr.wellFormed : Instr → Bool
  | .pitchWheelSigned _ sv => fitsSigned16 sv
  | .rxData _ => true
  | .rxNoteOff _ => true
  | .rxNoteOn _ => true
  | .rxPolyAftertouch _ => true
  | .rxControlChange _ => true
  | .rxProgramChange _ => true
  | .rxChannelAftertouch _ => true
  | .rxPitchWheel _ => true
  | .rxSysexStart => true
  | .rxScF1 => true
  | .rxScF2 => true
  | .rxScF3 => true
  | .rxScF4 => true
  | .rxScF5 => true
  | .rxTuneRequest => true
  | .rxSysexEnd => true
  | .rxRtTimingClock => true
  | .rxRtF9 => true
  | .rxRtStart => true
  | .rxRtContinue => true
  | .rxRtStop => true
  | .rxRtFd => true
  | .rxRtActiveSensing => true
  | .rxRtReset => true
  | .noteOff _ _ _ => true
  | .noteOn _ _ _ => true
  | .controlChange _ _ _ => true
  | .channelAftertouch _ _ _ => true
  | .pitchWheel _ _ => true
  | .rtTimingClock _ _ => true
  | .modWheel _ _ => true
  | .rtStart _ _ => true
  | .rtContinue _ _ => true
  | .rtStop _ _ => true
  | .rtActiveSensing _ _ => true
  | .rtReset _ _ => true

end Sys2Proof
end

