-- ==== Sys2Proof/Decode.lean ====
section
/-! DEFINITION. The two decoders, written from the opcode maps of 30_encoding.md (rule R81 for input bytes, rule R82 with
rule R72 and rule R73 for command words), the encoder after them, and the opcode table's own rows. -/

namespace Sys2Proof

/-- What stands on an input port: a byte on `rx_in` (10_state.md rule R26) or a command word on `cmd` (rule R28). -/
inductive Encoded where
  | rx (b : Byte)
  | cmd (w : Word24)
  deriving DecidableEq, Repr

/-- Why a decoder rejects an encoding. -/
inductive Reject where
  /-- A command word whose op is 0x2, 0x4 or 0xD spells no command (rule R74). -/
  | reservedCommandOp (op : BitVec 4)
  deriving DecidableEq, Repr

/-- `b[3:0]` of a channel status byte (rule R62). -/
def channelOf (b : Byte) : Chan := b.extractLsb' 0 4

/-- `b[6:0]` of a data byte (rule R61). -/
def dataOf (b : Byte) : Data := b.extractLsb' 0 7

/-- The input byte's instruction (rule R81). The last branch is reached by 0xFF alone, the one byte that no row above it
matches. -/
def decodeByte (b : Byte) : Instr :=
  if b &&& 0x80#8 = 0x00#8 then .rxData (dataOf b)
  else if b &&& 0xF0#8 = 0x80#8 then .rxNoteOff (channelOf b)
  else if b &&& 0xF0#8 = 0x90#8 then .rxNoteOn (channelOf b)
  else if b &&& 0xF0#8 = 0xA0#8 then .rxPolyAftertouch (channelOf b)
  else if b &&& 0xF0#8 = 0xB0#8 then .rxControlChange (channelOf b)
  else if b &&& 0xF0#8 = 0xC0#8 then .rxProgramChange (channelOf b)
  else if b &&& 0xF0#8 = 0xD0#8 then .rxChannelAftertouch (channelOf b)
  else if b &&& 0xF0#8 = 0xE0#8 then .rxPitchWheel (channelOf b)
  else if b = 0xF0#8 then .rxSysexStart
  else if b = 0xF1#8 then .rxScF1
  else if b = 0xF2#8 then .rxScF2
  else if b = 0xF3#8 then .rxScF3
  else if b = 0xF4#8 then .rxScF4
  else if b = 0xF5#8 then .rxScF5
  else if b = 0xF6#8 then .rxTuneRequest
  else if b = 0xF7#8 then .rxSysexEnd
  else if b = 0xF8#8 then .rxRtTimingClock
  else if b = 0xF9#8 then .rxRtF9
  else if b = 0xFA#8 then .rxRtStart
  else if b = 0xFB#8 then .rxRtContinue
  else if b = 0xFC#8 then .rxRtStop
  else if b = 0xFD#8 then .rxRtFd
  else if b = 0xFE#8 then .rxRtActiveSensing
  else .rxRtReset

/-- `op = w[23:20]` (rule R72). -/
def opOf (w : Word24) : BitVec 4 := w.extractLsb' 20 4

/-- `ch = w[19:16]` (rule R72). -/
def chOf (w : Word24) : Chan := w.extractLsb' 16 4

/-- `p = w[15:0]` (rule R72). -/
def pOf (w : Word24) : Word16 := w.extractLsb' 0 16

/-- `p[15:8]` (rule R72, form C2). -/
def hiByte (p : Word16) : Byte := p.extractLsb' 8 8

/-- `p[7:0]` (rule R72, forms C2 and C1). -/
def loByte (p : Word16) : Byte := p.extractLsb' 0 8

/-- The command word's instruction: selected by `op` alone (rule R73, rule R82); a reserved op is rejected (rule R74). -/
def decodeCommand (w : Word24) : Except Reject Instr :=
  let op := opOf w
  let ch := chOf w
  let p := pOf w
  if op = 0x0#4 then .ok (.noteOff ch (hiByte p) (loByte p))
  else if op = 0x1#4 then .ok (.noteOn ch (hiByte p) (loByte p))
  else if op = 0x3#4 then .ok (.controlChange ch (hiByte p) (loByte p))
  else if op = 0x5#4 then .ok (.channelAftertouch ch (hiByte p) (loByte p))
  else if op = 0x6#4 then .ok (.pitchWheel ch p)
  else if op = 0x7#4 then .ok (.pitchWheelSigned ch p.toInt)
  else if op = 0x8#4 then .ok (.rtTimingClock ch p)
  else if op = 0x9#4 then .ok (.modWheel ch p)
  else if op = 0xA#4 then .ok (.rtStart ch p)
  else if op = 0xB#4 then .ok (.rtContinue ch p)
  else if op = 0xC#4 then .ok (.rtStop ch p)
  else if op = 0xE#4 then .ok (.rtActiveSensing ch p)
  else if op = 0xF#4 then .ok (.rtReset ch p)
  else .error (.reservedCommandOp op)

/-- Decoding what stands on a port: total, and a rejection carries its reason. -/
def decode : Encoded → Except Reject Instr
  | .rx b => .ok (decodeByte b)
  | .cmd w => decodeCommand w

/-- A channel status byte: `family | channel` (rule R62). -/
def statusByteOf (fambase : Byte) (ch : Chan) : Byte := fambase ||| ch.setWidth 8

/-- The word `op:4 ch:4 p:16` (rule R72). -/
def commandWord (op : BitVec 4) (ch : Chan) (p : Word16) : Word24 := op ++ (ch ++ p)

/-- The encoding of an instruction (rule R72, rule R73, rule R81). -/
def encode : Instr → Encoded
  | .rxData d => .rx (d.setWidth 8)
  | .rxNoteOff ch => .rx (statusByteOf 0x80#8 ch)
  | .rxNoteOn ch => .rx (statusByteOf 0x90#8 ch)
  | .rxPolyAftertouch ch => .rx (statusByteOf 0xA0#8 ch)
  | .rxControlChange ch => .rx (statusByteOf 0xB0#8 ch)
  | .rxProgramChange ch => .rx (statusByteOf 0xC0#8 ch)
  | .rxChannelAftertouch ch => .rx (statusByteOf 0xD0#8 ch)
  | .rxPitchWheel ch => .rx (statusByteOf 0xE0#8 ch)
  | .rxSysexStart => .rx 0xF0#8
  | .rxScF1 => .rx 0xF1#8
  | .rxScF2 => .rx 0xF2#8
  | .rxScF3 => .rx 0xF3#8
  | .rxScF4 => .rx 0xF4#8
  | .rxScF5 => .rx 0xF5#8
  | .rxTuneRequest => .rx 0xF6#8
  | .rxSysexEnd => .rx 0xF7#8
  | .rxRtTimingClock => .rx 0xF8#8
  | .rxRtF9 => .rx 0xF9#8
  | .rxRtStart => .rx 0xFA#8
  | .rxRtContinue => .rx 0xFB#8
  | .rxRtStop => .rx 0xFC#8
  | .rxRtFd => .rx 0xFD#8
  | .rxRtActiveSensing => .rx 0xFE#8
  | .rxRtReset => .rx 0xFF#8
  | .noteOff ch key vel => .cmd (commandWord 0x0#4 ch (key ++ vel))
  | .noteOn ch key vel => .cmd (commandWord 0x1#4 ch (key ++ vel))
  | .controlChange ch ctl val => .cmd (commandWord 0x3#4 ch (ctl ++ val))
  | .channelAftertouch ch ignored pressure => .cmd (commandWord 0x5#4 ch (ignored ++ pressure))
  | .pitchWheel ch v => .cmd (commandWord 0x6#4 ch v)
  | .pitchWheelSigned ch sv => .cmd (commandWord 0x7#4 ch (BitVec.ofInt 16 sv))
  | .rtTimingClock ch p => .cmd (commandWord 0x8#4 ch p)
  | .modWheel ch v => .cmd (commandWord 0x9#4 ch v)
  | .rtStart ch p => .cmd (commandWord 0xA#4 ch p)
  | .rtContinue ch p => .cmd (commandWord 0xB#4 ch p)
  | .rtStop ch p => .cmd (commandWord 0xC#4 ch p)
  | .rtActiveSensing ch p => .cmd (commandWord 0xE#4 ch p)
  | .rtReset ch p => .cmd (commandWord 0xF#4 ch p)

/-- The instruction read from bits numbered as spec/opcode_table.json numbers them: an 8-bit row is a byte on `rx_in`, a
24-bit row a word on `cmd`. A port moves its value whole, so no byte order enters (log entry 17). -/
def decodeTableWord (nbits w : Nat) : Option Instr :=
  if nbits = 8 then some (decodeByte (BitVec.ofNat 8 w))
  else if nbits = 24 then
    match decodeCommand (BitVec.ofNat 24 w) with
    | .ok i => some i
    | .error _ => none
  else none

/-- The number of bits on the port. -/
def Encoded.width : Encoded → Nat
  | .rx _ => 8
  | .cmd _ => 24

/-- The bits on the port, numbered from the least significant. -/
def Encoded.bits : Encoded → Nat
  | .rx b => b.toNat
  | .cmd w => w.toNat

/-- The match and mask of the instruction's row in rule R81 or rule R82 (spec/opcode_table.json), as numbers, with the
row's width first: (width, match, mask). -/
def Instr.tableRow : Instr → Nat × Nat × Nat
  | .rxData _ => (8, 0x00, 0x80)
  | .rxNoteOff _ => (8, 0x80, 0xF0)
  | .rxNoteOn _ => (8, 0x90, 0xF0)
  | .rxPolyAftertouch _ => (8, 0xA0, 0xF0)
  | .rxControlChange _ => (8, 0xB0, 0xF0)
  | .rxProgramChange _ => (8, 0xC0, 0xF0)
  | .rxChannelAftertouch _ => (8, 0xD0, 0xF0)
  | .rxPitchWheel _ => (8, 0xE0, 0xF0)
  | .rxSysexStart => (8, 0xF0, 0xFF)
  | .rxScF1 => (8, 0xF1, 0xFF)
  | .rxScF2 => (8, 0xF2, 0xFF)
  | .rxScF3 => (8, 0xF3, 0xFF)
  | .rxScF4 => (8, 0xF4, 0xFF)
  | .rxScF5 => (8, 0xF5, 0xFF)
  | .rxTuneRequest => (8, 0xF6, 0xFF)
  | .rxSysexEnd => (8, 0xF7, 0xFF)
  | .rxRtTimingClock => (8, 0xF8, 0xFF)
  | .rxRtF9 => (8, 0xF9, 0xFF)
  | .rxRtStart => (8, 0xFA, 0xFF)
  | .rxRtContinue => (8, 0xFB, 0xFF)
  | .rxRtStop => (8, 0xFC, 0xFF)
  | .rxRtFd => (8, 0xFD, 0xFF)
  | .rxRtActiveSensing => (8, 0xFE, 0xFF)
  | .rxRtReset => (8, 0xFF, 0xFF)
  | .noteOff _ _ _ => (24, 0x000000, 0xF00000)
  | .noteOn _ _ _ => (24, 0x100000, 0xF00000)
  | .controlChange _ _ _ => (24, 0x300000, 0xF00000)
  | .channelAftertouch _ _ _ => (24, 0x500000, 0xF00000)
  | .pitchWheel _ _ => (24, 0x600000, 0xF00000)
  | .pitchWheelSigned _ _ => (24, 0x700000, 0xF00000)
  | .rtTimingClock _ _ => (24, 0x800000, 0xF00000)
  | .modWheel _ _ => (24, 0x900000, 0xF00000)
  | .rtStart _ _ => (24, 0xA00000, 0xF00000)
  | .rtContinue _ _ => (24, 0xB00000, 0xF00000)
  | .rtStop _ _ => (24, 0xC00000, 0xF00000)
  | .rtActiveSensing _ _ => (24, 0xE00000, 0xF00000)
  | .rtReset _ _ => (24, 0xF00000, 0xF00000)

/-- The 24 input-byte rows of rule R81 as (match, mask), in the table's order. -/
def rxRows : List (Nat × Nat) :=
  [(0x00, 0x80), (0x80, 0xF0), (0x90, 0xF0), (0xA0, 0xF0), (0xB0, 0xF0), (0xC0, 0xF0), (0xD0, 0xF0), (0xE0, 0xF0)]
  ++ [(0xF0, 0xFF), (0xF1, 0xFF), (0xF2, 0xFF), (0xF3, 0xFF), (0xF4, 0xFF), (0xF5, 0xFF), (0xF6, 0xFF), (0xF7, 0xFF)]
  ++ [(0xF8, 0xFF), (0xF9, 0xFF), (0xFA, 0xFF), (0xFB, 0xFF), (0xFC, 0xFF), (0xFD, 0xFF), (0xFE, 0xFF), (0xFF, 0xFF)]

end Sys2Proof
end

