-- ==== Sys2Proof/Config.lean ====
section
/-! DEFINITION. The configuration arguments of the block (00_scope.md rule R4) and the model's named value for the one
register whose reset value the spec leaves unspecified. -/

namespace Sys2Proof

/-- The configuration arguments of the block: the two mod-wheel controller numbers (rule R4, U11: 7 bits each).
They are fixed for the machine; no step writes them. -/
structure Config where
  /-- `MOD_LSB_CC`: the controller that carries the low half of a mod-wheel value (rule R109). -/
  modLsbCc : Data
  /-- `MOD_MSB_CC`: the controller that carries the high half of a mod-wheel value (rule R109). -/
  modMsbCc : Data
  deriving DecidableEq, Repr

/-- The defaults of 00_scope.md section 4: 0x21 and 0x01. Log entry 2. -/
def Config.default : Config := { modLsbCc := 0x21#7, modMsbCc := 0x01#7 }

/-- The value of `D1` after reset. DESIGN CHOICE (log entry 1, unsafe): rule R17 and rule R200 leave it
unspecified; no step reads it before some step has written it. -/
def Config.d1AtReset : Data := 0x00#7

end Sys2Proof
end

