-- ==== Sys2Proof/Machine/State.lean ====
section
/-! DEFINITION. The state of the block: its four registers (10_state.md rule R32), its configuration arguments
(00_scope.md rule R4), its ports and what a run shows of them (00_scope.md rule R6), and the reasons a step can stop. -/

namespace Sys2Proof.Machine

/-- One value of the decoder's event port (10_state.md rule R27). No event carries a channel (rule R3). -/
inductive Event where
  /-- `EV_NONE`: the step signals nothing. -/
  | none
  | noteOn (note velocity : Data)
  | noteOff (note velocity : Data)
  | controlChange (controller value : Data)
  | pitchWheel (lsb msb : Data)
  | realtime (status : Byte)
  deriving DecidableEq, Repr

/-- Which of the block's steps the environment lets happen (00_scope.md rule R6, 20_memory.md rule R53). -/
inductive Turn where
  /-- A decoder step: one poll of the transport (41_decoder.md rule R130). -/
  | decoder
  /-- An encoder step: one value of the command port (40_encoder.md rule R100). -/
  | encoder
  /-- The reset input is asserted (10_state.md rule R31); whatever stands on the other ports is not consumed (60_exceptions.md rule R183). -/
  | reset
  /-- The consumer, handling an event, starts a decoder step inside the decoder step that signals it (60_exceptions.md rule R184). -/
  | nestedDecoder
  deriving DecidableEq, Repr

/-- The reasons a step can end in a fault. There is none: the block raises no exception (60_exceptions.md rule R180),
no model fault is reachable (rule R184), and here the type has no value, so no run can end in one. Log entry 19. -/
inductive Fault where
  deriving DecidableEq, Repr

/-- The reasons a step can be refused. -/
inductive Refusal where
  /-- Raised by an arm of `exec` for an instruction without a meaning; no arm raises it. Safe. -/
  | notModelled (mnemonic : String)
  /-- Raised by an encoder step whose command word has op 0x2, 0x4 or 0xD (30_encoding.md rule R74, 60_exceptions.md
  rule R184). Safe: no claim about a run that uses one can be proved. -/
  | reservedCommandOp (op : BitVec 4)
  /-- Raised by a decoder step started while another is in progress (60_exceptions.md rule R184). Safe, as above. -/
  | reentrantDecode
  deriving DecidableEq, Repr

/-- The machine. `rxs`, `pend`, `d1` and `txs` are the whole architectural state (10_state.md rule R32); `cfg` holds the
configuration arguments; the other fields are the ports and what a run shows of them. -/
structure State where
  /-- `RXS`, the received running status (rule R10). -/
  rxs : Byte
  /-- `PEND`, the pending-byte flag (rule R12). -/
  pend : Bool
  /-- `D1`, the partial-message buffer (rule R14). -/
  d1 : Data
  /-- `TXS`, the transmitted running status (rule R23). -/
  txs : Byte
  /-- `MOD_LSB_CC` and `MOD_MSB_CC` (00_scope.md rule R4); no step writes them. -/
  cfg : Config
  /-- `ev`: the value the latest decoder step drove on the event port (rule R27). -/
  ev : Event
  /-- The events signalled so far, in order (00_scope.md rule R6); `EV_NONE` is not among them. -/
  evLog : List Event
  /-- `tx_out`: the byte list of the latest encoder step (rule R29). -/
  txOut : List Byte
  /-- The outbound byte stream so far (20_memory.md rule R52). -/
  txLog : List Byte
  /-- `rx_in`: the poll results the host will present, in arrival order (rule R26). -/
  rxIn : List (Option Byte)
  /-- `cmd`: the commands the host will present, in order (rule R28). -/
  cmdIn : List (Option Word24)
  /-- The steps the environment lets happen, in order. -/
  turns : List Turn
  deriving DecidableEq, Repr

/-- The machine right after reset (70_reset_and_hazards.md rule R200), with nothing presented, signalled or emitted. -/
def State.reset : State :=
  { rxs := NONE, pend := false, d1 := Config.d1AtReset, txs := NONE, cfg := Config.default,
    ev := .none, evLog := [], txOut := [], txLog := [], rxIn := [], cmdIn := [], turns := [] }

end Sys2Proof.Machine
end

