-- ==== Sys2Proof/Machine/Operands.lean ====
section
/-! DEFINITION. Byte classes and families (30_encoding.md rule R64, rule R67), operand masking (40_encoder.md rule R102),
the halves of a 14-bit composite (20_memory.md rule R42, 40_encoder.md rule R107) and the event encoding (rule R75). -/

namespace Sys2Proof.Machine

/-- The four byte classes (rule R67). -/
inductive ByteClass where
  | data
  | channel
  | sysCommon
  | realtime
  deriving DecidableEq, Repr

/-- `class(b)` (rule R67): bit 7 marks a status byte. -/
def classOf (b : Byte) : ByteClass :=
  if b &&& 0x80#8 = 0x00#8 then .data
  else if b ≤ 0xEF#8 then .channel
  else if b ≤ 0xF7#8 then .sysCommon
  else .realtime

/-- `fam(b)` (rule R64): the channel of a channel status is discarded, a system-common status stays whole. The rule
gives it no value for other bytes, and no meaning applies it to one. -/
def famOf (b : Byte) : Byte := if b ≤ 0xEF#8 then b &&& 0xF0#8 else b

/-- `x & 0x7F` (rule R102). -/
def mask7 (x : Byte) : Byte := x &&& 0x7F#8

/-- The low half of a 14-bit composite, `v & 0x7F`, as a data byte (rule R107). -/
def lsbOf (v : Word16) : Byte := (v &&& 0x7F#16).setWidth 8

/-- The high half of a 14-bit composite, `(v >> 7) & 0x7F`, as a data byte (rule R107). Bits 15..14 are dropped. -/
def msbOf (v : Word16) : Byte := ((v >>> 7) &&& 0x7F#16).setWidth 8

/-- `(sext_32(sv) + 8192) mod 2^16` (rule R108). -/
def recentre (sv : Int) : Word16 := BitVec.ofInt 16 (sv + 8192)

/-- A data byte that carries the 7-bit value `d` (rule R61). -/
def dataByteOf (d : Data) : Byte := d.setWidth 8

/-- An event as the port encodes it (rule R75). -/
structure EventWord where
  kind : BitVec 3
  x : Byte
  y : Data
  deriving DecidableEq, Repr

/-- The event encoding `kind:3, x:8, y:7` (rule R75). -/
def Event.toWord : Event → EventWord
  | .none => { kind := 0#3, x := 0x00#8, y := 0x00#7 }
  | .noteOn note velocity => { kind := 1#3, x := dataByteOf note, y := velocity }
  | .noteOff note velocity => { kind := 2#3, x := dataByteOf note, y := velocity }
  | .controlChange controller value => { kind := 3#3, x := dataByteOf controller, y := value }
  | .pitchWheel lsb msb => { kind := 4#3, x := dataByteOf lsb, y := msb }
  | .realtime status => { kind := 5#3, x := status, y := 0x00#7 }

/-- The event a step leaves in the run's record: `EV_NONE` leaves none (00_scope.md section 6, `Signal`). -/
def Event.logged : Event → List Event
  | .none => []
  | e => [e]

/-- Does the event stand for a completed channel message (41_decoder.md rule R162)? -/
def Event.isChannel : Event → Bool
  | .noteOn _ _ => true
  | .noteOff _ _ => true
  | .controlChange _ _ => true
  | .pitchWheel _ _ => true
  | .none => false
  | .realtime _ => false

end Sys2Proof.Machine
end

