-- ==== Sys2Proof/Machine/Flags.lean ====
section
/-! DEFINITION. How a data byte is framed under a running status (30_encoding.md rule R71), what the completing byte of a
message signals (rule R63), and the derived state tag and diagnostic snapshot (10_state.md rule R18, rule R30). `PEND` is
the block's only flag (rule R32). -/

namespace Sys2Proof.Machine

/-- What a first data byte does under a running status (rule R71). -/
inductive Framing where
  /-- Two data bytes: the first is stored and arms `PEND`. -/
  | twoBytes
  /-- One data byte: stored, and the message is complete. -/
  | oneByte
  /-- SC_QUIRK: stored, running status cleared, `PEND` armed. -/
  | quirk
  /-- The byte ends the running status and is discarded. -/
  | terminus
  deriving DecidableEq, Repr

/-- The families with two data bytes (rule R63). -/
def twoByteFamilies : List Byte := [0x80#8, 0x90#8, 0xA0#8, 0xB0#8, 0xE0#8]

/-- The families with one data byte (rule R63). -/
def oneByteFamilies : List Byte := [0xC0#8, 0xD0#8]

/-- `SC_QUIRK` (00_scope.md section 4). -/
def quirkStatuses : List Byte := [0xF2#8, 0xF3#8]

/-- The framing of a first data byte under the running status `f` (rule R71, 41_decoder.md rule R142 to rule R156). A
value of `RXS` that no run reaches is framed as a terminus, the source's fallback for "any other status": DESIGN CHOICE,
log entry 6. -/
def framingOf (f : Byte) : Framing :=
  if f ∈ twoByteFamilies then .twoBytes
  else if f ∈ oneByteFamilies then .oneByte
  else if f ∈ quirkStatuses then .quirk
  else .terminus

/-- What a second data byte `d` signals under the running status `f` when `d1` is held (41_decoder.md rule R142 to
rule R148, rule R159, rule R164): a note-on with velocity 0 is a note-off, and the families without an event signal
`EV_NONE`. -/
def secondEvent (f : Byte) (d1 d : Data) : Event :=
  if f = 0x80#8 then .noteOff d1 d
  else if f = 0x90#8 then (if d = 0x00#7 then .noteOff d1 0x00#7 else .noteOn d1 d)
  else if f = 0xB0#8 then .controlChange d1 d
  else if f = 0xE0#8 then .pitchWheel d1 d
  else .none

/-- The running status after a second data byte: a channel family stays (41_decoder.md rule R142 to rule R148), any other
value is cleared (rule R159, rule R164). -/
def secondStatus (f : Byte) : Byte :=
  if f ∈ twoByteFamilies then f
  else if f ∈ oneByteFamilies then f
  else NONE

/-- `TAG` (10_state.md rule R18): 2 AwaitingSecondData, 1 AwaitingFirstData, 0 NoStatus. -/
def State.tag (s : State) : BitVec 2 :=
  if s.pend then 2#2 else if s.rxs = NONE then 0#2 else 1#2

/-- The tuple the diagnostic port shows (10_state.md rule R30). -/
structure Diag where
  txs : Byte
  rxs : Byte
  pend : Byte
  tag : Byte
  deriving DecidableEq, Repr

/-- The diagnostic snapshot, a function of the state; reading it changes nothing (rule R30). -/
def State.diag (s : State) : Diag :=
  { txs := s.txs, rxs := s.rxs, pend := if s.pend then 0x01#8 else 0x00#8, tag := s.tag.setWidth 8 }

end Sys2Proof.Machine
end

