-- ==== Sys2Proof/Machine/Ops.lean ====
section
/-! DEFINITION. The named operations over the registers and the ports, which every meaning is built from. The block raises
no exception and returns from none (60_exceptions.md rule R180), and has no memory (20_memory.md rule R40), so there is no
operation for either. -/

namespace Sys2Proof.Machine

/-- `RXS <- v`. -/
def State.setRxs (s : State) (v : Byte) : State := { s with rxs := v }

/-- `PEND <- v`. -/
def State.setPend (s : State) (v : Bool) : State := { s with pend := v }

/-- `D1 <- d`. -/
def State.setD1 (s : State) (d : Data) : State := { s with d1 := d }

/-- `TXS <- v`. -/
def State.setTxs (s : State) (v : Byte) : State := { s with txs := v }

/-- `Signal(e)` (10_state.md rule R27): drive the event port, and record the event unless it is `EV_NONE`. -/
def State.signal (s : State) (e : Event) : State := { s with ev := e, evLog := s.evLog ++ e.logged }

/-- `Emit(bs)` (10_state.md rule R29): the step's byte list, appended contiguously to the outbound stream. -/
def State.emit (s : State) (bs : List Byte) : State := { s with txOut := bs, txLog := s.txLog ++ bs }

/-- A decoder step whose poll returns nothing (41_decoder.md rule R131). -/
def State.emptyPoll (s : State) : State := s.signal .none

/-- An idle encoder step (40_encoder.md rule R120). -/
def State.idleCommand (s : State) : State := s.emit []

/-- `RtByte(b)` (41_decoder.md rule R132). -/
def State.rtByte (s : State) (b : Byte) : State := s.signal (.realtime b)

/-- `StatusByte(b)` (41_decoder.md rule R141). -/
def State.statusByte (s : State) (b : Byte) : State := ((s.setRxs (famOf b)).setPend false).signal .none

/-- `First_RXS(d)` (41_decoder.md rule R142 to rule R156). -/
def State.firstData (s : State) (d : Data) : State :=
  match framingOf s.rxs with
  | .twoBytes => ((s.setD1 d).setPend true).signal .none
  | .oneByte => (s.setD1 d).signal .none
  | .quirk => (((s.setD1 d).setRxs NONE).setPend true).signal .none
  | .terminus => (s.setRxs NONE).signal .none

/-- `Second_RXS(d)` (41_decoder.md rule R142 to rule R148, rule R159, rule R164). -/
def State.secondData (s : State) (d : Data) : State :=
  (s.setRxs (secondStatus s.rxs)).signal (secondEvent s.rxs s.d1 d)

/-- `DataByte(d)` (41_decoder.md rule R130, rule R157): the pending flag is tested first; a byte with no running status
is stray (rule R158). -/
def State.dataByte (s : State) (d : Data) : State :=
  if s.pend then (s.setPend false).secondData d
  else if s.rxs = NONE then s.signal .none
  else s.firstData d

/-- `SendChannel(fambase, ch, data)` (40_encoder.md rule R101): the bytes to emit and the state with `TXS` updated; the
status byte is left out when it equals `TXS`. -/
def State.sendChannel (s : State) (fambase : Byte) (ch : Chan) (data : List Byte) : List Byte × State :=
  if statusByteOf fambase ch = s.txs then (data, s)
  else (statusByteOf fambase ch :: data, s.setTxs (statusByteOf fambase ch))

/-- `Emit(SendChannel(fambase, ch, data))`: one channel message (40_encoder.md rule R103 to rule R108). -/
def State.sendMessage (s : State) (fambase : Byte) (ch : Chan) (data : List Byte) : State :=
  let r := s.sendChannel fambase ch data
  r.2.emit r.1

/-- PITCH_WHEEL's action (40_encoder.md rule R107), which PITCH_WHEEL_SIGNED delegates to (rule R108). -/
def State.sendPitchWheel (s : State) (ch : Chan) (v : Word16) : State :=
  s.sendMessage 0xE0#8 ch [lsbOf v, msbOf v]

/-- MOD_WHEEL's action (40_encoder.md rule R109): two control changes, low half first, emitted together; the second
`SendChannel` reads the `TXS` the first one wrote. -/
def State.sendModWheel (s : State) (ch : Chan) (v : Word16) : State :=
  let r1 := s.sendChannel 0xB0#8 ch [mask7 (dataByteOf s.cfg.modLsbCc), lsbOf v]
  let r2 := r1.2.sendChannel 0xB0#8 ch [mask7 (dataByteOf s.cfg.modMsbCc), msbOf v]
  r2.2.emit (r1.1 ++ r2.1)

/-- `SendRealtime(b)` (40_encoder.md rule R110): neither reads nor writes `TXS`. -/
def State.sendRealtime (s : State) (b : Byte) : State := s.emit [b]

/-- The reset step (70_reset_and_hazards.md rule R200, rule R202): the registers take their reset values, nothing is
emitted and nothing signalled; the ports' inputs, the run's record and the configuration stay. -/
def State.resetBlock (s : State) : State :=
  { s with rxs := NONE, pend := false, d1 := Config.d1AtReset, txs := NONE, ev := .none, txOut := [] }

/-- What the environment presents for the next step. -/
inductive Presented where
  /-- A decoder step on a poll result (10_state.md rule R26). -/
  | poll (r : Option Byte) (s : State)
  /-- An encoder step on a value of the command port (10_state.md rule R28). -/
  | command (c : Option Word24) (s : State)
  /-- A reset (10_state.md rule R31). -/
  | reset (s : State)
  /-- A decoder step started inside a decoder step (60_exceptions.md rule R184). -/
  | nested
  deriving DecidableEq, Repr

/-- Take the next poll result off `rx_in`; where the host has presented no more, a poll returns nothing (log entry 3). -/
def State.takePoll (s : State) : Option Byte × State :=
  match s.rxIn with
  | [] => (none, s)
  | r :: rest => (r, { s with rxIn := rest })

/-- Take the next value off the command port; where the host has presented no more, it is idle (log entry 3). -/
def State.takeCommand (s : State) : Option Word24 × State :=
  match s.cmdIn with
  | [] => (none, s)
  | c :: rest => (c, { s with cmdIn := rest })

/-- The next turn, with what it consumes taken off its port. A reset consumes nothing but its turn (60_exceptions.md
rule R183). Where the environment has scheduled nothing, the decoder's poll finds nothing: DESIGN CHOICE, log entry 4. -/
def State.present (s : State) : Presented :=
  match s.turns with
  | [] => .poll none s
  | .decoder :: rest =>
    let r := { s with turns := rest }.takePoll
    .poll r.1 r.2
  | .encoder :: rest =>
    let r := { s with turns := rest }.takeCommand
    .command r.1 r.2
  | .reset :: rest => .reset { s with turns := rest }
  | .nestedDecoder :: _ => .nested

/-- The model's refusal of a rejected encoding (60_exceptions.md rule R184). -/
def refusalOf : Reject → Refusal
  | .reservedCommandOp op => .reservedCommandOp op

end Sys2Proof.Machine
end

