-- ==== Sys2Proof/Machine/RxChannel.lean ====
section
/-! DEFINITION. The meanings of the seven received channel status bytes (41_decoder.md rule R142 to rule R148): the arrival of the
status byte, `StatusByte(b)` of rule R141. What data bytes then do is RX_DATA's meaning. -/

namespace Sys2Proof.Machine

/-- RX_NOTE_OFF (rule R142). -/
def execRxNoteOff (ch : Chan) (s : State) : Host.Outcome State Fault Refusal :=
  .next (s.statusByte (statusByteOf 0x80#8 ch))

/-- RX_NOTE_ON (rule R143). -/
def execRxNoteOn (ch : Chan) (s : State) : Host.Outcome State Fault Refusal :=
  .next (s.statusByte (statusByteOf 0x90#8 ch))

/-- RX_POLY_AFTERTOUCH (rule R144). -/
def execRxPolyAftertouch (ch : Chan) (s : State) : Host.Outcome State Fault Refusal :=
  .next (s.statusByte (statusByteOf 0xA0#8 ch))

/-- RX_CONTROL_CHANGE (rule R145). -/
def execRxControlChange (ch : Chan) (s : State) : Host.Outcome State Fault Refusal :=
  .next (s.statusByte (statusByteOf 0xB0#8 ch))

/-- RX_PROGRAM_CHANGE (rule R146). -/
def execRxProgramChange (ch : Chan) (s : State) : Host.Outcome State Fault Refusal :=
  .next (s.statusByte (statusByteOf 0xC0#8 ch))

/-- RX_CHANNEL_AFTERTOUCH (rule R147). -/
def execRxChannelAftertouch (ch : Chan) (s : State) : Host.Outcome State Fault Refusal :=
  .next (s.statusByte (statusByteOf 0xD0#8 ch))

/-- RX_PITCH_WHEEL (rule R148). -/
def execRxPitchWheel (ch : Chan) (s : State) : Host.Outcome State Fault Refusal :=
  .next (s.statusByte (statusByteOf 0xE0#8 ch))

end Sys2Proof.Machine
end

