-- ==== Sys2Proof/Machine/RxData.lean ====
section
/-! DEFINITION. The meaning of a received data byte (41_decoder.md rule R157). -/

namespace Sys2Proof.Machine

/-- RX_DATA (rule R157): `DataByte(d)`, in the order rule R130 gives. -/
def execRxData (d : Data) (s : State) : Host.Outcome State Fault Refusal := .next (s.dataByte d)

end Sys2Proof.Machine
end

