-- ==== Sys2Proof/Machine/RxRealtime.lean ====
section
/-! DEFINITION. The meanings of the eight received realtime bytes (41_decoder.md rule R133 to rule R140): `RtByte(b)` of rule R132. -/

namespace Sys2Proof.Machine

/-- RX_RT_TIMING_CLOCK (rule R133). -/
def execRxRtTimingClock (s : State) : Host.Outcome State Fault Refusal := .next (s.rtByte 0xF8#8)

/-- RX_RT_F9 (rule R134). -/
def execRxRtF9 (s : State) : Host.Outcome State Fault Refusal := .next (s.rtByte 0xF9#8)

/-- RX_RT_START (rule R135). -/
def execRxRtStart (s : State) : Host.Outcome State Fault Refusal := .next (s.rtByte 0xFA#8)

/-- RX_RT_CONTINUE (rule R136). -/
def execRxRtContinue (s : State) : Host.Outcome State Fault Refusal := .next (s.rtByte 0xFB#8)

/-- RX_RT_STOP (rule R137). -/
def execRxRtStop (s : State) : Host.Outcome State Fault Refusal := .next (s.rtByte 0xFC#8)

/-- RX_RT_FD (rule R138). -/
def execRxRtFd (s : State) : Host.Outcome State Fault Refusal := .next (s.rtByte 0xFD#8)

/-- RX_RT_ACTIVE_SENSING (rule R139). -/
def execRxRtActiveSensing (s : State) : Host.Outcome State Fault Refusal := .next (s.rtByte 0xFE#8)

/-- RX_RT_RESET (rule R140). -/
def execRxRtReset (s : State) : Host.Outcome State Fault Refusal := .next (s.rtByte 0xFF#8)

end Sys2Proof.Machine
end

