-- ==== Sys2Proof/Machine/RxSystemCommon.lean ====
section
/-! DEFINITION. The meanings of the eight received system-common status bytes (41_decoder.md rule R149 to rule R156): the arrival of
the status byte, `StatusByte(b)` of rule R141. What data bytes then do is RX_DATA's meaning. -/

namespace Sys2Proof.Machine

/-- RX_SYSEX_START (rule R149). -/
def execRxSysexStart (s : State) : Host.Outcome State Fault Refusal := .next (s.statusByte 0xF0#8)

/-- RX_SC_F1 (rule R150). -/
def execRxScF1 (s : State) : Host.Outcome State Fault Refusal := .next (s.statusByte 0xF1#8)

/-- RX_SC_F2 (rule R151). -/
def execRxScF2 (s : State) : Host.Outcome State Fault Refusal := .next (s.statusByte 0xF2#8)

/-- RX_SC_F3 (rule R152). -/
def execRxScF3 (s : State) : Host.Outcome State Fault Refusal := .next (s.statusByte 0xF3#8)

/-- RX_SC_F4 (rule R153). -/
def execRxScF4 (s : State) : Host.Outcome State Fault Refusal := .next (s.statusByte 0xF4#8)

/-- RX_SC_F5 (rule R154). -/
def execRxScF5 (s : State) : Host.Outcome State Fault Refusal := .next (s.statusByte 0xF5#8)

/-- RX_TUNE_REQUEST (rule R155). -/
def execRxTuneRequest (s : State) : Host.Outcome State Fault Refusal := .next (s.statusByte 0xF6#8)

/-- RX_SYSEX_END (rule R156). -/
def execRxSysexEnd (s : State) : Host.Outcome State Fault Refusal := .next (s.statusByte 0xF7#8)

end Sys2Proof.Machine
end

