-- ==== Sys2Proof/Machine/TxChannel.lean ====
section
/-! DEFINITION. The meanings of the seven channel commands (40_encoder.md rule R103 to rule R109). -/

namespace Sys2Proof.Machine

/-- NOTE_OFF (rule R103). -/
def execNoteOff (ch : Chan) (key vel : Byte) (s : State) : Host.Outcome State Fault Refusal :=
  .next (s.sendMessage 0x80#8 ch [mask7 key, mask7 vel])

/-- NOTE_ON (rule R104): velocity 0 is sent as it is. -/
def execNoteOn (ch : Chan) (key vel : Byte) (s : State) : Host.Outcome State Fault Refusal :=
  .next (s.sendMessage 0x90#8 ch [mask7 key, mask7 vel])

/-- CONTROL_CHANGE (rule R105). -/
def execControlChange (ch : Chan) (ctl val : Byte) (s : State) : Host.Outcome State Fault Refusal :=
  .next (s.sendMessage 0xB0#8 ch [mask7 ctl, mask7 val])

/-- CHANNEL_AFTERTOUCH (rule R106): one data byte; `p[15:8]` is not looked at. -/
def execChannelAftertouch (ch : Chan) (pressure : Byte) (s : State) : Host.Outcome State Fault Refusal :=
  .next (s.sendMessage 0xD0#8 ch [mask7 pressure])

/-- PITCH_WHEEL (rule R107). -/
def execPitchWheel (ch : Chan) (v : Word16) (s : State) : Host.Outcome State Fault Refusal := .next (s.sendPitchWheel ch v)

/-- PITCH_WHEEL_SIGNED (rule R108): re-centred, then PITCH_WHEEL's action. -/
def execPitchWheelSigned (ch : Chan) (sv : Int) (s : State) : Host.Outcome State Fault Refusal :=
  .next (s.sendPitchWheel ch (recentre sv))

/-- MOD_WHEEL (rule R109): one atomic step. -/
def execModWheel (ch : Chan) (v : Word16) (s : State) : Host.Outcome State Fault Refusal := .next (s.sendModWheel ch v)

end Sys2Proof.Machine
end

