-- ==== Sys2Proof/Machine/TxRealtime.lean ====
section
/-! DEFINITION. The meanings of the six realtime commands (40_encoder.md rule R111 to rule R116): `SendRealtime(b)` of rule R110; `ch`
and `p` are not looked at (decision D31). -/

namespace Sys2Proof.Machine

/-- RT_TIMING_CLOCK (rule R111). -/
def execRtTimingClock (s : State) : Host.Outcome State Fault Refusal := .next (s.sendRealtime 0xF8#8)

/-- RT_START (rule R112). -/
def execRtStart (s : State) : Host.Outcome State Fault Refusal := .next (s.sendRealtime 0xFA#8)

/-- RT_CONTINUE (rule R113). -/
def execRtContinue (s : State) : Host.Outcome State Fault Refusal := .next (s.sendRealtime 0xFB#8)

/-- RT_STOP (rule R114). -/
def execRtStop (s : State) : Host.Outcome State Fault Refusal := .next (s.sendRealtime 0xFC#8)

/-- RT_ACTIVE_SENSING (rule R115). -/
def execRtActiveSensing (s : State) : Host.Outcome State Fault Refusal := .next (s.sendRealtime 0xFE#8)

/-- RT_RESET (rule R116). -/
def execRtReset (s : State) : Host.Outcome State Fault Refusal := .next (s.sendRealtime 0xFF#8)

end Sys2Proof.Machine
end

