-- ==== Sys2Proof/Machine/Dispatch.lean ====
section
/-! DEFINITION. The dispatch: one arm per instruction, each one direct call of its meaning. -/

namespace Sys2Proof.Machine

def exec (i : Instr) (s : State) : Host.Outcome State Fault Refusal :=
  match i with
  | .rxData d => Sys2Proof.Machine.execRxData d s
  | .rxNoteOff ch => Sys2Proof.Machine.execRxNoteOff ch s
  | .rxNoteOn ch => Sys2Proof.Machine.execRxNoteOn ch s
  | .rxPolyAftertouch ch => Sys2Proof.Machine.execRxPolyAftertouch ch s
  | .rxControlChange ch => Sys2Proof.Machine.execRxControlChange ch s
  | .rxProgramChange ch => Sys2Proof.Machine.execRxProgramChange ch s
  | .rxChannelAftertouch ch => Sys2Proof.Machine.execRxChannelAftertouch ch s
  | .rxPitchWheel ch => Sys2Proof.Machine.execRxPitchWheel ch s
  | .rxSysexStart => Sys2Proof.Machine.execRxSysexStart s
  | .rxScF1 => Sys2Proof.Machine.execRxScF1 s
  | .rxScF2 => Sys2Proof.Machine.execRxScF2 s
  | .rxScF3 => Sys2Proof.Machine.execRxScF3 s
  | .rxScF4 => Sys2Proof.Machine.execRxScF4 s
  | .rxScF5 => Sys2Proof.Machine.execRxScF5 s
  | .rxTuneRequest => Sys2Proof.Machine.execRxTuneRequest s
  | .rxSysexEnd => Sys2Proof.Machine.execRxSysexEnd s
  | .rxRtTimingClock => Sys2Proof.Machine.execRxRtTimingClock s
  | .rxRtF9 => Sys2Proof.Machine.execRxRtF9 s
  | .rxRtStart => Sys2Proof.Machine.execRxRtStart s
  | .rxRtContinue => Sys2Proof.Machine.execRxRtContinue s
  | .rxRtStop => Sys2Proof.Machine.execRxRtStop s
  | .rxRtFd => Sys2Proof.Machine.execRxRtFd s
  | .rxRtActiveSensing => Sys2Proof.Machine.execRxRtActiveSensing s
  | .rxRtReset => Sys2Proof.Machine.execRxRtReset s
  | .noteOff ch key vel => Sys2Proof.Machine.execNoteOff ch key vel s
  | .noteOn ch key vel => Sys2Proof.Machine.execNoteOn ch key vel s
  | .controlChange ch ctl val => Sys2Proof.Machine.execControlChange ch ctl val s
  | .channelAftertouch ch _ pressure => Sys2Proof.Machine.execChannelAftertouch ch pressure s
  | .pitchWheel ch v => Sys2Proof.Machine.execPitchWheel ch v s
  | .pitchWheelSigned ch sv => Sys2Proof.Machine.execPitchWheelSigned ch sv s
  | .rtTimingClock _ _ => Sys2Proof.Machine.execRtTimingClock s
  | .modWheel ch v => Sys2Proof.Machine.execModWheel ch v s
  | .rtStart _ _ => Sys2Proof.Machine.execRtStart s
  | .rtContinue _ _ => Sys2Proof.Machine.execRtContinue s
  | .rtStop _ _ => Sys2Proof.Machine.execRtStop s
  | .rtActiveSensing _ _ => Sys2Proof.Machine.execRtActiveSensing s
  | .rtReset _ _ => Sys2Proof.Machine.execRtReset s

end Sys2Proof.Machine
end

