-- ==== Sys2Proof/Machine/Step.lean ====
section
/-! DEFINITION. One step of the block (00_scope.md rule R6): a decoder step on a poll result, an encoder step on a
command, or a reset. -/

namespace Sys2Proof.Machine

/-- `DecStep` (41_decoder.md rule R130): the poll result's byte is decoded and its instruction runs. -/
def decStep (r : Option Byte) (s : State) : Host.Outcome State Fault Refusal :=
  match r with
  | none => .next s.emptyPoll
  | some b => exec (decodeByte b) s

/-- `EncStep` (40_encoder.md rule R100): the command word is decoded and its instruction runs; a reserved op is refused. -/
def encStep (c : Option Word24) (s : State) : Host.Outcome State Fault Refusal :=
  match c with
  | none => .next s.idleCommand
  | some w =>
    match decodeCommand w with
    | .ok i => exec i s
    | .error e => .refused (refusalOf e)

/-- One step: the environment's next turn is performed, whole (20_memory.md rule R46, rule R47). -/
def step (s : State) : Host.Outcome State Fault Refusal :=
  match s.present with
  | .poll r s' => decStep r s'
  | .command c s' => encStep c s'
  | .reset s' => .next s'.resetBlock
  | .nested => .refused .reentrantDecode

/-- `s` with one instruction presented as the very next step: an 8-bit row's byte on `rx_in` with a decoder turn, a 24-bit
row's word on `cmd` with an encoder turn. The block has no fetch (20_memory.md rule R56): this stands for the host
presenting the byte or the command (log entry 3). -/
def State.withFetchWord (s : State) (nbits w : Nat) : State :=
  if nbits = 8 then
    { s with rxIn := some (BitVec.ofNat 8 w) :: s.rxIn, turns := .decoder :: s.turns }
  else if nbits = 24 then
    { s with cmdIn := some (BitVec.ofNat 24 w) :: s.cmdIn, turns := .encoder :: s.turns }
  else s

end Sys2Proof.Machine
end

