-- ==== Sys2Proof/Machine/Asm.lean ====
section
/-! DEFINITION. The spec's notation (30_encoding.md rule R78, rule R79): a command line to its word, an RX line to its
polls, and the host presenting them. -/

namespace Sys2Proof.Machine

/-- The operand forms (rule R72). -/
inductive Form where
  | c2
  | c1
  | cu
  | cs
  | r
  deriving DecidableEq, Repr

/-- Mnemonic, op and form of each command (rule R73). -/
def asmTable : List (String × BitVec 4 × Form) :=
  [("NOTE_OFF", 0x0#4, .c2), ("NOTE_ON", 0x1#4, .c2), ("CONTROL_CHANGE", 0x3#4, .c2),
   ("CHANNEL_AFTERTOUCH", 0x5#4, .c1), ("PITCH_WHEEL", 0x6#4, .cu), ("PITCH_WHEEL_SIGNED", 0x7#4, .cs)]
  ++ [("RT_TIMING_CLOCK", 0x8#4, .r), ("MOD_WHEEL", 0x9#4, .cu), ("RT_START", 0xA#4, .r),
   ("RT_CONTINUE", 0xB#4, .r), ("RT_STOP", 0xC#4, .r), ("RT_ACTIVE_SENSING", 0xE#4, .r), ("RT_RESET", 0xF#4, .r)]

/-- The word of a line's op and operands: `op << 20 | ch << 16 | p`, with `p = a << 8 | b` (C2), `p = a` (C1) and
`p = v mod 2^16` (CU, CS) (rule R78). A channel keeps its low 4 bits (rule R102) and `p` its low 16; an operand is
negative in form CS alone. -/
def asmWord (op : BitVec 4) (form : Form) (operands : List Int) : Option Word24 :=
  match form, operands with
  | .c2, [.ofNat ch, .ofNat a, .ofNat b] =>
    some (commandWord op (BitVec.ofNat 4 ch) (BitVec.ofNat 16 ((a <<< 8) ||| b)))
  | .c1, [.ofNat ch, .ofNat a] => some (commandWord op (BitVec.ofNat 4 ch) (BitVec.ofNat 16 a))
  | .cu, [.ofNat ch, .ofNat v] => some (commandWord op (BitVec.ofNat 4 ch) (BitVec.ofNat 16 v))
  | .cs, [.ofNat ch, v] => some (commandWord op (BitVec.ofNat 4 ch) (BitVec.ofInt 16 v))
  | .r, [] => some (commandWord op 0x0#4 0x0000#16)
  | _, _ => none

/-- Cut a text at every `sep`. -/
def cutAt (sep : Char) : List Char → List (List Char)
  | [] => [[]]
  | c :: rest =>
    match cutAt sep rest with
    | [] => [[c]]
    | w :: ws => if c = sep then [] :: w :: ws else (c :: w) :: ws

/-- The words of a text between spaces. -/
def wordsOf (text : List Char) : List (List Char) := (cutAt ' ' text).filter (fun w => !w.isEmpty)

/-- The value of a digit, hexadecimal ones in either case. -/
def digitOf (c : Char) : Option Nat :=
  let n := c.toNat
  if 48 ≤ n ∧ n ≤ 57 then some (n - 48)
  else if 65 ≤ n ∧ n ≤ 70 then some (n - 55)
  else if 97 ≤ n ∧ n ≤ 102 then some (n - 87)
  else none

/-- The digits of a number in a base, on top of what is read so far. -/
def digitsFrom (base acc : Nat) : List Char → Option Nat
  | [] => some acc
  | c :: rest =>
    match digitOf c with
    | some d => if d < base then digitsFrom base (base * acc + d) rest else none
    | none => none

/-- A number with at least one digit. -/
def naturalOf (base : Nat) : List Char → Option Nat
  | [] => none
  | cs => digitsFrom base 0 cs

/-- An operand: decimal, hex with `0x`, or negative decimal (rule R78). A minus before zero reads as 0, and so is taken in
every form and as a channel: DESIGN CHOICE, log entry 15. -/
def operandOf : List Char → Option Int
  | '-' :: cs => (naturalOf 10 cs).map (fun n => - (n : Int))
  | '0' :: 'x' :: cs => (naturalOf 16 cs).map (fun n => (n : Int))
  | cs => (naturalOf 10 cs).map (fun n => (n : Int))

/-- Read each element, or nothing. -/
def allOf {α β : Type} (f : α → Option β) : List α → Option (List β)
  | [] => some []
  | a :: rest =>
    match f a, allOf f rest with
    | some b, some bs => some (b :: bs)
    | _, _ => none

/-- An operand with the spaces around it. -/
def spacedOperandOf (text : List Char) : Option Int :=
  match wordsOf text with
  | [w] => operandOf w
  | _ => none

/-- The operands after a mnemonic: none at all, or a list with commas between. -/
def operandsOf (text : List Char) : Option (List Int) :=
  match wordsOf text with
  | [] => some []
  | _ => allOf spacedOperandOf (cutAt ',' text)

/-- The text up to its first space, and the text after it. -/
def headWord : List Char → List Char × List Char
  | [] => ([], [])
  | c :: rest =>
    if c = ' ' then ([], rest)
    else ((c :: (headWord rest).1), (headWord rest).2)

/-- A command line to its word (rule R78). -/
def assemble (line : List Char) : Option Word24 :=
  let r := headWord line
  match asmTable.find? (fun row => row.1.toList == r.1), operandsOf r.2 with
  | some row, some ops => asmWord row.2.1 row.2.2 ops
  | _, _ => none

/-- One poll of an RX line: two hex digits, or `--` for a poll that returns nothing (rule R79). -/
def pollOf : List Char → Option (Option Byte)
  | ['-', '-'] => some none
  | [h, l] => (naturalOf 16 [h, l]).map (fun n => some (BitVec.ofNat 8 n))
  | _ => none

/-- An RX line to its polls, in arrival order (rule R79). -/
def rxLine (line : List Char) : Option (List (Option Byte)) :=
  match wordsOf line with
  | ['R', 'X'] :: ws => allOf pollOf ws
  | _ => none

/-- The host presenting polls, one decoder step each (10_state.md rule R26). -/
def State.presentPolls (s : State) (polls : List (Option Byte)) : State :=
  { s with rxIn := s.rxIn ++ polls, turns := s.turns ++ polls.map (fun _ => .decoder) }

/-- The host presenting commands, one encoder step each (10_state.md rule R28). -/
def State.presentCommands (s : State) (commands : List (Option Word24)) : State :=
  { s with cmdIn := s.cmdIn ++ commands, turns := s.turns ++ commands.map (fun _ => .encoder) }

end Sys2Proof.Machine
end

