-- ==== Sys2Proof/Safety.lean ====
section
/-! DEFINITION. What counts as a legal state (10_state.md rule R20, rule R21, rule R25), the source's abstract states and
their transitions (rule R19, 41_decoder.md rule R160), runs of several steps, and the terms the claims use. -/

namespace Sys2Proof.Machine

/-- One step's outcome on this block. -/
abbrev Result := Host.Outcome State Fault Refusal

/-- The legal values of `RXS` (10_state.md section 1, rule R21). -/
def legalRxs : List Byte :=
  [NONE, 0x80#8, 0x90#8, 0xA0#8, 0xB0#8, 0xC0#8, 0xD0#8, 0xE0#8]
  ++ [0xF0#8, 0xF1#8, 0xF2#8, 0xF3#8, 0xF4#8, 0xF5#8, 0xF6#8, 0xF7#8]

/-- The values of `RXS` under which `PEND` may be 1 (rule R20). -/
def pendRxs : List Byte := [0x80#8, 0x90#8, 0xA0#8, 0xB0#8, 0xE0#8, NONE]

/-- A channel status byte, 0x80..0xEF (rule R60). -/
def isChannelStatus (b : Byte) : Bool := decide (0x80#8 ≤ b) && decide (b ≤ 0xEF#8)

/-- A realtime status byte, 0xF8..0xFF (rule R67). -/
def isRealtimeByte (b : Byte) : Bool := decide (0xF8#8 ≤ b)

/-- An event the port may carry: a realtime event carries a realtime byte (rule R75). -/
def Event.legal : Event → Bool
  | .realtime b => isRealtimeByte b
  | .none => true
  | .noteOn _ _ => true
  | .noteOff _ _ => true
  | .controlChange _ _ => true
  | .pitchWheel _ _ => true

/-- The invariant of 10_state.md: rule R21 for `RXS`, rule R20 for `PEND`, rule R25 for `TXS`; with rule R29's bound on the
bytes of one encoder step and rule R75's on the events. -/
structure State.Inv (s : State) : Prop where
  rxs_legal : s.rxs ∈ legalRxs
  pend_legal : s.pend = true → s.rxs ∈ pendRxs
  txs_legal : s.txs = NONE ∨ isChannelStatus s.txs = true
  txOut_bound : s.txOut.length ≤ 5
  ev_legal : s.ev.legal = true
  evLog_legal : ∀ e ∈ s.evLog, e.legal = true ∧ e ≠ .none

/-- The decoder's abstract states (10_state.md rule R19). -/
inductive AbsState where
  | noStatus
  | awaitingFirst (f : Byte)
  | awaitingSecond (f : Byte) (first : Data)
  /-- `RXS` = `NONE` with `PEND` = 1: one more data byte will be swallowed. -/
  | quirk
  deriving DecidableEq, Repr

/-- How the abstract states map onto the registers (rule R19). -/
def State.abs (s : State) : AbsState :=
  if s.pend then
    if s.rxs = NONE then .quirk else .awaitingSecond s.rxs s.d1
  else if s.rxs = NONE then .noStatus
  else .awaitingFirst s.rxs

/-- `v = d_lsb | (d_msb << 7)` (30_encoding.md rule R69): the value two data bytes carry. The block never joins them; the
statements do. -/
def composite (lsb msb : Data) : BitVec 14 := lsb.setWidth 14 ||| (msb.setWidth 14 <<< 7)

/-- The transitions of 41_decoder.md rule R160, on the byte's value and with the families written out. -/
def AbsState.after (a : AbsState) (b : Byte) : AbsState :=
  if 0xF8#8 ≤ b then a
  else if 0xF0#8 ≤ b then .awaitingFirst b
  else if 0x80#8 ≤ b then .awaitingFirst (b &&& 0xF0#8)
  else
    match a with
    | .awaitingFirst f =>
      if f ∈ [0x80#8, 0x90#8, 0xA0#8, 0xB0#8, 0xE0#8] then .awaitingSecond f (b.setWidth 7)
      else if f = 0xC0#8 ∨ f = 0xD0#8 then .awaitingFirst f
      else if f = 0xF2#8 ∨ f = 0xF3#8 then .quirk
      else .noStatus
    | .awaitingSecond f _ => .awaitingFirst f
    | .quirk => .noStatus
    | .noStatus => .noStatus

/-- What a decoder step on `b` signals in the abstract state `a`: a realtime byte itself (41_decoder.md rule R132), the data
byte that completes a note, control-change or pitch-wheel message its family's event (rule R142, rule R143, rule R145,
rule R148), and every other byte nothing. -/
def AbsState.signals (a : AbsState) (b : Byte) : Event :=
  if 0xF8#8 ≤ b then .realtime b
  else if 0x80#8 ≤ b then .none
  else
    match a with
    | .awaitingSecond f first =>
      if f = 0x80#8 ∨ (f = 0x90#8 ∧ b = 0x00#8) then .noteOff first (b.setWidth 7)
      else if f = 0x90#8 then .noteOn first (b.setWidth 7)
      else if f = 0xB0#8 then .controlChange first (b.setWidth 7)
      else if f = 0xE0#8 then .pitchWheel first (b.setWidth 7)
      else .none
    | .awaitingFirst _ => .none
    | .quirk => .none
    | .noStatus => .none

/-- Perform one step per element of a list, in order, stopping at the first that is no next state. -/
def runAll {α : Type} (f : α → State → Result) : List α → State → Result
  | [], s => .next s
  | a :: rest, s =>
    match f a s with
    | .next t => runAll f rest t
    | .fault r => .fault r
    | .refused r => .refused r

/-- Feed the decoder a sequence of poll results (30_encoding.md rule R79). -/
def feed : List (Option Byte) → State → Result := runAll decStep

/-- Feed the decoder a sequence of bytes, one per poll. -/
def feedBytes (bs : List Byte) : State → Result := feed (bs.map some)

/-- Perform a sequence of instructions. -/
def runInstrs : List Instr → State → Result := runAll exec

/-- The state after one encoder step that sends `status` with `data`, as 40_encoder.md rule R101 words it: the status byte
is written only where it differs from `TXS`, and `TXS` ends as the status byte. -/
def State.afterSend (s : State) (status : Byte) (data : List Byte) : State :=
  { s with
    txs := status
    txOut := (if s.txs = status then [] else [status]) ++ data
    txLog := s.txLog ++ (if s.txs = status then [] else [status]) ++ data }

/-- Two states that agree on everything but a `D1` that no step will read: `D1` agrees where `PEND` is 1
(10_state.md rule R17). -/
structure SameButD1 (s t : State) : Prop where
  rest : { t with d1 := s.d1 } = s
  held : s.pend = true → t.d1 = s.d1

end Sys2Proof.Machine

namespace Sys2Proof

open Sys2Proof.Machine

/-- Does the instruction belong to the decoder (one of the 24 input-byte rows)? -/
def Instr.isRx (i : Instr) : Bool := i.tableRow.1 == 8

/-- The status byte a channel command sends: its family and channel (40_encoder.md rule R103 to rule R109). -/
def Instr.txStatus : Instr → Option Byte
  | .noteOff ch _ _ => some (statusByteOf 0x80#8 ch)
  | .noteOn ch _ _ => some (statusByteOf 0x90#8 ch)
  | .controlChange ch _ _ => some (statusByteOf 0xB0#8 ch)
  | .channelAftertouch ch _ _ => some (statusByteOf 0xD0#8 ch)
  | .pitchWheel ch _ => some (statusByteOf 0xE0#8 ch)
  | .pitchWheelSigned ch _ => some (statusByteOf 0xE0#8 ch)
  | .modWheel ch _ => some (statusByteOf 0xB0#8 ch)
  | _ => none

/-- The byte a realtime command sends: `0xF0 | op` (30_encoding.md rule R73). -/
def Instr.txRealtime : Instr → Option Byte
  | .rtTimingClock _ _ => some 0xF8#8
  | .rtStart _ _ => some 0xFA#8
  | .rtContinue _ _ => some 0xFB#8
  | .rtStop _ _ => some 0xFC#8
  | .rtActiveSensing _ _ => some 0xFE#8
  | .rtReset _ _ => some 0xFF#8
  | _ => none

/-- How many data bytes a channel command sends (40_encoder.md rule R119): its length when its status byte is elided. -/
def Instr.txDataLength : Instr → Nat
  | .channelAftertouch _ _ _ => 1
  | .modWheel _ _ => 4
  | _ => 2

/-- The event that a far decoder signals for a command, where loopback gives one event per command (95_test_vectors.md
PR5): a note-on with velocity 0 comes out as a note-off, a signed pitch wheel as its re-centred halves. -/
def Instr.loopEvent : Instr → Option Event
  | .noteOff _ key vel => some (.noteOff (key.setWidth 7) (vel.setWidth 7))
  | .noteOn _ key vel =>
    some (if vel.setWidth 7 = 0x00#7 then .noteOff (key.setWidth 7) 0x00#7
      else .noteOn (key.setWidth 7) (vel.setWidth 7))
  | .controlChange _ ctl val => some (.controlChange (ctl.setWidth 7) (val.setWidth 7))
  | .pitchWheel _ v => some (.pitchWheel (v.extractLsb' 0 7) (v.extractLsb' 7 7))
  | .pitchWheelSigned _ sv =>
    some (.pitchWheel ((recentre sv).extractLsb' 0 7) ((recentre sv).extractLsb' 7 7))
  | .rtTimingClock _ _ => some (.realtime 0xF8#8)
  | .rtStart _ _ => some (.realtime 0xFA#8)
  | .rtContinue _ _ => some (.realtime 0xFB#8)
  | .rtStop _ _ => some (.realtime 0xFC#8)
  | .rtActiveSensing _ _ => some (.realtime 0xFE#8)
  | .rtReset _ _ => some (.realtime 0xFF#8)
  | _ => none

end Sys2Proof
end

