-- ==== Sys2Proof/Certificates/Slice0/Obligations.lean ====
section
/-! DEFINITION. The statements about the machine, from the numbered rules of spec/. Where a next state is written out, its
fields `ev`, `evLog`, `txOut` and `txLog` are the model's form of the output ports and of what a run shows (log entry 5). -/

open Sys2Proof Sys2Proof.Machine

/-! ## Encodings -/

/-- A few encodings written out from rule R72, rule R73 and rule R81, one or more per family of the table. -/
def Obligations.SpecEncodingsDecode : Prop :=
  decode (.rx 0x3C#8) = .ok (.rxData 0x3C#7) ∧
  decode (.rx 0x9F#8) = .ok (.rxNoteOn 0xF#4) ∧
  decode (.rx 0xC5#8) = .ok (.rxProgramChange 0x5#4) ∧
  decode (.rx 0xF2#8) = .ok .rxScF2 ∧
  decode (.rx 0xFE#8) = .ok .rxRtActiveSensing ∧
  decode (.cmd 0x103C64#24) = .ok (.noteOn 0x0#4 0x3C#8 0x64#8) ∧
  decode (.cmd 0x5201D0#24) = .ok (.channelAftertouch 0x2#4 0x01#8 0xD0#8) ∧
  decode (.cmd 0x70DFFF#24) = .ok (.pitchWheelSigned 0x0#4 (-8193)) ∧
  decode (.cmd 0x93C000#24) = .ok (.modWheel 0x3#4 0xC000#16) ∧
  decode (.cmd 0x8F1234#24) = .ok (.rtTimingClock 0xF#4 0x1234#16)

/-- Decode and encode agree on every well-formed instruction (rule R72, rule R73, rule R81). -/
def Obligations.DecodeOfEncode : Prop :=
  ∀ i : Instr, i.wellFormed = true → decode (encode i) = .ok i

/-- Whatever decodes, decodes to a well-formed instruction whose encoding it is: no bit is dropped. -/
def Obligations.EncodeOfDecode : Prop :=
  ∀ (e : Encoded) (i : Instr), decode e = .ok i → i.wellFormed = true ∧ encode i = e

/-- Rule R81: exactly one row matches each byte, it is the row of the decoded instruction, and the channel nibble of the
channel rows is ignored. -/
def Obligations.ByteOpcodeMap : Prop :=
  (∀ b : Byte, rxRows.filter (fun r => b.toNat &&& r.2 == r.1) =
    [((decodeByte b).tableRow.2.1, (decodeByte b).tableRow.2.2)]) ∧
  (∀ (c c' : Chan) (s : State),
    exec (.rxNoteOff c) s = exec (.rxNoteOff c') s ∧ exec (.rxNoteOn c) s = exec (.rxNoteOn c') s ∧
    exec (.rxPolyAftertouch c) s = exec (.rxPolyAftertouch c') s ∧
    exec (.rxControlChange c) s = exec (.rxControlChange c') s ∧
    exec (.rxProgramChange c) s = exec (.rxProgramChange c') s ∧
    exec (.rxChannelAftertouch c) s = exec (.rxChannelAftertouch c') s ∧
    exec (.rxPitchWheel c) s = exec (.rxPitchWheel c') s)

/-- Rule R74: a word with a reserved op code is refused by the encoder step, any other word runs. -/
def Obligations.ReservedOpsRefused : Prop :=
  ∀ (w : Word24) (s : State),
    if opOf w = 0x2#4 ∨ opOf w = 0x4#4 ∨ opOf w = 0xD#4 then
      encStep (some w) s = .refused (.reservedCommandOp (opOf w))
    else ∃ i t, decodeCommand w = .ok i ∧ encStep (some w) s = exec i s ∧ exec i s = .next t

/-- Rule R67: the four classes cut the 256 byte values as the rule draws them, and the decoder is total. -/
def Obligations.ByteClasses : Prop :=
  ∀ b : Byte,
    (classOf b = .data ↔ b ≤ 0x7F#8) ∧ (classOf b = .channel ↔ 0x80#8 ≤ b ∧ b ≤ 0xEF#8) ∧
    (classOf b = .sysCommon ↔ 0xF0#8 ≤ b ∧ b ≤ 0xF7#8) ∧ (classOf b = .realtime ↔ 0xF8#8 ≤ b) ∧
    ∀ s : State, ∃ t, decStep (some b) s = .next t

/-- Rule R75: the event encoding, row by row; kinds 6 and 7 are never driven, and what a decoder step drives with kind 5
carries a realtime byte. -/
def Obligations.EventEncoding : Prop :=
  Event.none.toWord = { kind := 0#3, x := 0x00#8, y := 0x00#7 } ∧
  (∀ a b : Data,
    (Event.noteOn a b).toWord = { kind := 1#3, x := a.setWidth 8, y := b } ∧
    (Event.noteOff a b).toWord = { kind := 2#3, x := a.setWidth 8, y := b } ∧
    (Event.controlChange a b).toWord = { kind := 3#3, x := a.setWidth 8, y := b } ∧
    (Event.pitchWheel a b).toWord = { kind := 4#3, x := a.setWidth 8, y := b }) ∧
  (∀ b : Byte, (Event.realtime b).toWord = { kind := 5#3, x := b, y := 0x00#7 }) ∧
  (∀ e : Event, e.toWord.kind ≤ 5#3) ∧
  (∀ (r : Option Byte) (s t : State), decStep r s = .next t → t.ev.toWord.kind = 5#3 → 0xF8#8 ≤ t.ev.toWord.x)

/-- Rule R69 with rule R42: the halves PITCH_WHEEL and MOD_WHEEL send are data bytes, low half first, and carry
`v mod 16384`; splitting a joined value gives its data bytes back; and the decoder passes the halves on without joining
them. -/
def Obligations.CompositeHalves : Prop :=
  (∀ v : Word16, lsbOf v ≤ 0x7F#8 ∧ msbOf v ≤ 0x7F#8 ∧
    composite ((lsbOf v).setWidth 7) ((msbOf v).setWidth 7) = v.setWidth 14) ∧
  (∀ lsb msb : Data,
    lsbOf ((composite lsb msb).setWidth 16) = lsb.setWidth 8 ∧ msbOf ((composite lsb msb).setWidth 16) = msb.setWidth 8 ∧
    (composite lsb msb).toNat = lsb.toNat + 128 * msb.toNat) ∧
  (∀ (s : State) (ch : Chan) (v : Word16),
    exec (.pitchWheel ch v) s = .next (s.afterSend (0xE0#8 ||| ch.setWidth 8) [lsbOf v, msbOf v]) ∧
    exec (.modWheel ch v) s = .next (s.afterSend (0xB0#8 ||| ch.setWidth 8)
      [s.cfg.modLsbCc.setWidth 8, lsbOf v, s.cfg.modMsbCc.setWidth 8, msbOf v])) ∧
  (∀ (d : State) (v : Word16), d.rxs = 0xE0#8 → d.pend = false →
    ∃ u lsb msb, feedBytes [lsbOf v, msbOf v] d = .next u ∧ u.evLog = d.evLog ++ [.pitchWheel lsb msb] ∧
      composite lsb msb = v.setWidth 14)

/-- Rule R78: the number of an assembled word, for each operand form. -/
def Obligations.AssembledWords : Prop :=
  ∀ (op : BitVec 4) (ch a b v : Nat) (sv : Int), ch < 16 → a < 256 → b < 256 → v < 65536 →
    -32768 ≤ sv → sv ≤ 32767 →
    (asmWord op .c2 [.ofNat ch, .ofNat a, .ofNat b]).map BitVec.toNat =
      some (op.toNat * 2 ^ 20 + ch * 2 ^ 16 + (a * 2 ^ 8 + b)) ∧
    (asmWord op .c1 [.ofNat ch, .ofNat a]).map BitVec.toNat = some (op.toNat * 2 ^ 20 + ch * 2 ^ 16 + a) ∧
    (asmWord op .cu [.ofNat ch, .ofNat v]).map BitVec.toNat = some (op.toNat * 2 ^ 20 + ch * 2 ^ 16 + v) ∧
    (asmWord op .cs [.ofNat ch, sv]).map BitVec.toNat =
      some (op.toNat * 2 ^ 20 + ch * 2 ^ 16 + (sv % 65536).toNat) ∧
    (asmWord op .r []).map BitVec.toNat = some (op.toNat * 2 ^ 20)

/-! ## One step -/

/-- The step runs the decoded instruction: a decoder turn takes the next byte off `rx_in`, an encoder turn the next word
off `cmd`, and what runs is `exec` on the state with the turn and the input taken (rule R100, rule R130). -/
def Obligations.StepRunsDecoded : Prop :=
  (∀ (s : State) (ts : List Turn) (b : Byte) (q : List (Option Byte)),
    s.turns = .decoder :: ts → s.rxIn = some b :: q →
    step s = exec (decodeByte b) { s with turns := ts, rxIn := q }) ∧
  (∀ (s : State) (ts : List Turn) (w : Word24) (q : List (Option Word24)) (i : Instr),
    s.turns = .encoder :: ts → s.cmdIn = some w :: q → decode (.cmd w) = .ok i →
    step s = exec i { s with turns := ts, cmdIn := q })

/-- Rule R131 and rule R48: an empty poll writes no register and signals `EV_NONE`. Rule R120: an idle encoder step emits
nothing and leaves `TXS` unchanged. Each as a step of its unit and as a turn of the machine; that the turn and the presented
`none` are taken off `turns`, `rxIn` and `cmdIn` is the model's form of the ports (log entry 3), and that `ev` and `txOut`
keep the other unit's latest value is its choice (log entry 5). -/
def Obligations.IdleSteps : Prop :=
  (∀ s : State, decStep none s = .next { s with ev := .none }) ∧
  (∀ s : State, encStep none s = .next { s with txOut := [] }) ∧
  (∀ (s : State) (ts : List Turn) (q : List (Option Byte)), s.turns = .decoder :: ts → s.rxIn = none :: q →
    step s = .next { s with turns := ts, rxIn := q, ev := .none }) ∧
  (∀ (s : State) (ts : List Turn) (q : List (Option Word24)), s.turns = .encoder :: ts → s.cmdIn = none :: q →
    step s = .next { s with turns := ts, cmdIn := q, txOut := [] })

/-- Rule R200: what a reset step sets; `D1` is unspecified, so nothing is said of it. -/
def Obligations.ResetAction : Prop :=
  ∀ (s : State) (ts : List Turn), s.turns = .reset :: ts →
    ∃ t, step s = .next t ∧ t.rxs = NONE ∧ t.pend = false ∧ t.txs = NONE ∧ t.tag = 0#2 ∧ t.abs = .noStatus

/-- Rule R202: a reset emits no byte, signals no event and performs nothing that is presented with it (what stands on the
other ports stays there: rule R183), and a second reset changes nothing more but its own turn. That the ports read as empty
after it and the records are kept is the model's choice (log entry 5), that the queues keep what was presented its reading
(log entry 7), and that the configuration is a field which stays its choice (log entry 2). -/
def Obligations.ResetSilentAndIdempotent : Prop :=
  ∀ (s : State) (ts : List Turn), s.turns = .reset :: ts →
    ∃ t, step s = .next t ∧ t.ev = .none ∧ t.evLog = s.evLog ∧ t.txOut = [] ∧ t.txLog = s.txLog ∧
      t.rxIn = s.rxIn ∧ t.cmdIn = s.cmdIn ∧ t.turns = ts ∧ t.cfg = s.cfg ∧
      ∀ ts', ts = .reset :: ts' → step t = .next { t with turns := ts' }

/-- The reset values the spec gives: rule R11, rule R13, rule R24; `NONE` differs from every channel status byte. -/
def Obligations.ResetValues : Prop :=
  State.reset.rxs = 0x00#8 ∧ State.reset.pend = false ∧ State.reset.abs = .noStatus ∧ State.reset.txs = 0x00#8 ∧
  ∀ b : Byte, isChannelStatus b = true → State.reset.txs ≠ b

/-- Rule R184 and rule R180: a step is refused in exactly two cases, and never faults. The re-entrant step as a turn
`nestedDecoder` is the model's choice (log entry 8), the refusal of a reserved op is log entry 9, and no step faults because
the type of faults has no value (log entry 19). -/
def Obligations.RefusesExactlyTwoCases : Prop :=
  ∀ s : State,
    (∀ f, step s ≠ .fault f) ∧
    (∀ r, step s = .refused r ↔
      (r = .reentrantDecode ∧ s.turns.head? = some .nestedDecoder) ∨
      (∃ w, r = .reservedCommandOp (opOf w) ∧ s.turns.head? = some .encoder ∧ s.cmdIn.head? = some (some w) ∧
        (opOf w = 0x2#4 ∨ opOf w = 0x4#4 ∨ opOf w = 0xD#4)))

/-- Rule R118: no operand value makes a command, and no byte makes a decoder step, do anything but complete. -/
def Obligations.EveryInstructionCompletes : Prop :=
  ∀ (i : Instr) (s : State), ∃ t, exec i s = .next t

/-! ## The decoder's families -/

/-- Rule R132 with rule R133 to rule R140: each realtime byte signals itself and changes no register. -/
def Obligations.RealtimeBytes : Prop :=
  (∀ (s : State) (b : Byte), 0xF8#8 ≤ b →
    decStep (some b) s = .next { s with ev := .realtime b, evLog := s.evLog ++ [.realtime b] }) ∧
  ∀ s : State,
    exec .rxRtTimingClock s = .next { s with ev := .realtime 0xF8#8, evLog := s.evLog ++ [.realtime 0xF8#8] } ∧
    exec .rxRtF9 s = .next { s with ev := .realtime 0xF9#8, evLog := s.evLog ++ [.realtime 0xF9#8] } ∧
    exec .rxRtStart s = .next { s with ev := .realtime 0xFA#8, evLog := s.evLog ++ [.realtime 0xFA#8] } ∧
    exec .rxRtContinue s = .next { s with ev := .realtime 0xFB#8, evLog := s.evLog ++ [.realtime 0xFB#8] } ∧
    exec .rxRtStop s = .next { s with ev := .realtime 0xFC#8, evLog := s.evLog ++ [.realtime 0xFC#8] } ∧
    exec .rxRtFd s = .next { s with ev := .realtime 0xFD#8, evLog := s.evLog ++ [.realtime 0xFD#8] } ∧
    exec .rxRtActiveSensing s = .next { s with ev := .realtime 0xFE#8, evLog := s.evLog ++ [.realtime 0xFE#8] } ∧
    exec .rxRtReset s = .next { s with ev := .realtime 0xFF#8, evLog := s.evLog ++ [.realtime 0xFF#8] }

/-- Rule R141: every byte 0x80..0xF7 becomes the running status by its family and clears `PEND`; nothing else changes. -/
def Obligations.StatusByteArrival : Prop :=
  ∀ (b : Byte) (s : State), 0x80#8 ≤ b → b ≤ 0xF7#8 →
    decStep (some b) s =
      .next { s with rxs := if b ≤ 0xEF#8 then b &&& 0xF0#8 else b, pend := false, ev := .none }

/-- Rule R142: note-off. -/
def Obligations.NoteOffFamily : Prop :=
  ∀ (s : State) (ch : Chan) (d : Data),
    decodeByte (0x80#8 ||| ch.setWidth 8) = .rxNoteOff ch ∧
    exec (.rxNoteOff ch) s = .next { s with rxs := 0x80#8, pend := false, ev := .none } ∧
    (s.rxs = 0x80#8 → s.pend = false →
      exec (.rxData d) s = .next { s with d1 := d, pend := true, ev := .none }) ∧
    (s.rxs = 0x80#8 → s.pend = true →
      exec (.rxData d) s =
        .next { s with pend := false, ev := .noteOff s.d1 d, evLog := s.evLog ++ [.noteOff s.d1 d] })

/-- Rule R143: note-on, and note-off for velocity 0. -/
def Obligations.NoteOnFamily : Prop :=
  ∀ (s : State) (ch : Chan) (d : Data),
    decodeByte (0x90#8 ||| ch.setWidth 8) = .rxNoteOn ch ∧
    exec (.rxNoteOn ch) s = .next { s with rxs := 0x90#8, pend := false, ev := .none } ∧
    (s.rxs = 0x90#8 → s.pend = false →
      exec (.rxData d) s = .next { s with d1 := d, pend := true, ev := .none }) ∧
    (s.rxs = 0x90#8 → s.pend = true → d ≠ 0x00#7 →
      exec (.rxData d) s =
        .next { s with pend := false, ev := .noteOn s.d1 d, evLog := s.evLog ++ [.noteOn s.d1 d] }) ∧
    (s.rxs = 0x90#8 → s.pend = true →
      exec (.rxData 0x00#7) s =
        .next { s with pend := false, ev := .noteOff s.d1 0x00#7, evLog := s.evLog ++ [.noteOff s.d1 0x00#7] })

/-- Rule R144: polyphonic aftertouch takes two data bytes and signals nothing. -/
def Obligations.PolyAftertouchFamily : Prop :=
  ∀ (s : State) (ch : Chan) (d : Data),
    decodeByte (0xA0#8 ||| ch.setWidth 8) = .rxPolyAftertouch ch ∧
    exec (.rxPolyAftertouch ch) s = .next { s with rxs := 0xA0#8, pend := false, ev := .none } ∧
    (s.rxs = 0xA0#8 → s.pend = false →
      exec (.rxData d) s = .next { s with d1 := d, pend := true, ev := .none }) ∧
    (s.rxs = 0xA0#8 → s.pend = true → exec (.rxData d) s = .next { s with pend := false, ev := .none })

/-- Rule R145: control change. -/
def Obligations.ControlChangeFamily : Prop :=
  ∀ (s : State) (ch : Chan) (d : Data),
    decodeByte (0xB0#8 ||| ch.setWidth 8) = .rxControlChange ch ∧
    exec (.rxControlChange ch) s = .next { s with rxs := 0xB0#8, pend := false, ev := .none } ∧
    (s.rxs = 0xB0#8 → s.pend = false →
      exec (.rxData d) s = .next { s with d1 := d, pend := true, ev := .none }) ∧
    (s.rxs = 0xB0#8 → s.pend = true →
      exec (.rxData d) s =
        .next { s with pend := false, ev := .controlChange s.d1 d, evLog := s.evLog ++ [.controlChange s.d1 d] })

/-- Rule R146 and rule R147: program change and channel aftertouch take one data byte, never arm `PEND` and signal
nothing; their second-data-byte case, which no run reaches, leaves the running status. -/
def Obligations.OneByteFamilies : Prop :=
  ∀ (s : State) (ch : Chan) (d : Data),
    decodeByte (0xC0#8 ||| ch.setWidth 8) = .rxProgramChange ch ∧
    decodeByte (0xD0#8 ||| ch.setWidth 8) = .rxChannelAftertouch ch ∧
    exec (.rxProgramChange ch) s = .next { s with rxs := 0xC0#8, pend := false, ev := .none } ∧
    exec (.rxChannelAftertouch ch) s = .next { s with rxs := 0xD0#8, pend := false, ev := .none } ∧
    (s.rxs = 0xC0#8 ∨ s.rxs = 0xD0#8 → s.pend = false →
      exec (.rxData d) s = .next { s with d1 := d, ev := .none }) ∧
    (s.rxs = 0xC0#8 ∨ s.rxs = 0xD0#8 → s.pend = true →
      exec (.rxData d) s = .next { s with pend := false, ev := .none }) ∧
    (s.Inv → s.rxs = 0xC0#8 ∨ s.rxs = 0xD0#8 → s.pend = false)

/-- Rule R148: pitch wheel, its two halves in the order received. -/
def Obligations.PitchWheelFamily : Prop :=
  ∀ (s : State) (ch : Chan) (d : Data),
    decodeByte (0xE0#8 ||| ch.setWidth 8) = .rxPitchWheel ch ∧
    exec (.rxPitchWheel ch) s = .next { s with rxs := 0xE0#8, pend := false, ev := .none } ∧
    (s.rxs = 0xE0#8 → s.pend = false →
      exec (.rxData d) s = .next { s with d1 := d, pend := true, ev := .none }) ∧
    (s.rxs = 0xE0#8 → s.pend = true →
      exec (.rxData d) s =
        .next { s with pend := false, ev := .pitchWheel s.d1 d, evLog := s.evLog ++ [.pitchWheel s.d1 d] })

/-- Rule R149, rule R150 and rule R153 to rule R156: these system-common bytes are stored, and the first data byte after
one clears the running status and is discarded. -/
def Obligations.SystemCommonTerminus : Prop :=
  ∀ (s : State) (d : Data),
    (decodeByte 0xF0#8 = .rxSysexStart ∧ decodeByte 0xF1#8 = .rxScF1 ∧ decodeByte 0xF4#8 = .rxScF4 ∧
      decodeByte 0xF5#8 = .rxScF5 ∧ decodeByte 0xF6#8 = .rxTuneRequest ∧ decodeByte 0xF7#8 = .rxSysexEnd) ∧
    exec .rxSysexStart s = .next { s with rxs := 0xF0#8, pend := false, ev := .none } ∧
    exec .rxScF1 s = .next { s with rxs := 0xF1#8, pend := false, ev := .none } ∧
    exec .rxScF4 s = .next { s with rxs := 0xF4#8, pend := false, ev := .none } ∧
    exec .rxScF5 s = .next { s with rxs := 0xF5#8, pend := false, ev := .none } ∧
    exec .rxTuneRequest s = .next { s with rxs := 0xF6#8, pend := false, ev := .none } ∧
    exec .rxSysexEnd s = .next { s with rxs := 0xF7#8, pend := false, ev := .none } ∧
    (s.rxs = 0xF0#8 ∨ s.rxs = 0xF1#8 ∨ s.rxs = 0xF4#8 ∨ s.rxs = 0xF5#8 ∨ s.rxs = 0xF6#8 ∨ s.rxs = 0xF7#8 →
      s.pend = false → exec (.rxData d) s = .next { s with rxs := NONE, ev := .none })

/-- Rule R151, rule R152 and rule R159: the quirk of 0xF2 and 0xF3, and the byte it swallows. -/
def Obligations.SystemCommonQuirk : Prop :=
  ∀ (s : State) (d : Data),
    decodeByte 0xF2#8 = .rxScF2 ∧ decodeByte 0xF3#8 = .rxScF3 ∧
    exec .rxScF2 s = .next { s with rxs := 0xF2#8, pend := false, ev := .none } ∧
    exec .rxScF3 s = .next { s with rxs := 0xF3#8, pend := false, ev := .none } ∧
    (s.rxs = 0xF2#8 ∨ s.rxs = 0xF3#8 → s.pend = false →
      exec (.rxData d) s = .next { s with d1 := d, rxs := NONE, pend := true, ev := .none }) ∧
    (s.rxs = NONE → s.pend = true → exec (.rxData d) s = .next { s with pend := false, ev := .none })

/-- Rule R158: stray data is discarded. -/
def Obligations.StrayData : Prop :=
  ∀ (s : State) (d : Data), s.rxs = NONE → s.pend = false → exec (.rxData d) s = .next { s with ev := .none }

/-- Rule R164: a second data byte under a system-common value clears the running status; under the invariant there is
none. -/
def Obligations.SecondUnderSystemCommon : Prop :=
  ∀ (s : State) (d : Data), 0xF0#8 ≤ s.rxs → s.rxs ≤ 0xF7#8 →
    (s.pend = true → exec (.rxData d) s = .next { s with pend := false, rxs := NONE, ev := .none }) ∧
    (s.Inv → s.pend = false)

/-- Under a value of `RXS` that no run reaches, a data byte ends the running status without an event. The model's choice
(log entry 6): the spec gives no rule for such a state. -/
def Obligations.UnreachableStatusEnds : Prop :=
  ∀ (s : State) (d : Data), s.rxs ∉ legalRxs →
    exec (.rxData d) s = .next { s with rxs := NONE, pend := false, ev := .none }

/-! ## The decoder as a whole -/

/-- The frame of the 24 input-byte instructions (rule R34): the encoder's side, the configuration and the inputs are
unchanged, and the events grow by what the event port shows, at most one. -/
def Obligations.DecoderFrame : Prop :=
  ∀ (i : Instr) (s t : State), i.isRx = true → exec i s = .next t →
    t.txs = s.txs ∧ t.txOut = s.txOut ∧ t.txLog = s.txLog ∧ t.cfg = s.cfg ∧
    t.rxIn = s.rxIn ∧ t.cmdIn = s.cmdIn ∧ t.turns = s.turns ∧
    ((t.ev = .none ∧ t.evLog = s.evLog) ∨ (t.ev ≠ .none ∧ t.evLog = s.evLog ++ [t.ev]))

/-- Rule R15: `D1` is written by a first data byte under the listed statuses, and by nothing else. -/
def Obligations.D1Writers : Prop :=
  ∀ (i : Instr) (s t : State), exec i s = .next t →
    (∀ d, i = .rxData d → s.pend = false →
      s.rxs ∈ [0x80#8, 0x90#8, 0xA0#8, 0xB0#8, 0xC0#8, 0xD0#8, 0xE0#8, 0xF2#8, 0xF3#8] → t.d1 = d) ∧
    (¬ (∃ d, i = .rxData d ∧ s.pend = false ∧
      s.rxs ∈ [0x80#8, 0x90#8, 0xA0#8, 0xB0#8, 0xC0#8, 0xD0#8, 0xE0#8, 0xF2#8, 0xF3#8]) → t.d1 = s.d1)

/-- Rule R17: no step reads a `D1` that has not been written: two states that differ only in a `D1` not held by `PEND`
take the same step, event for event, and still differ only so. -/
def Obligations.UnwrittenD1NeverRead : Prop :=
  ∀ s t s' : State, SameButD1 s t → step s = .next s' → ∃ t', step t = .next t' ∧ SameButD1 s' t'

/-- Rule R3: two channel status bytes of one family do the same, whatever their channels. -/
def Obligations.ChannelOmni : Prop :=
  ∀ (b b' : Byte) (s : State), isChannelStatus b = true → isChannelStatus b' = true →
    b &&& 0xF0#8 = b' &&& 0xF0#8 → decStep (some b) s = decStep (some b') s

/-- Rule R160: every decoder step on a byte follows the source's abstract transitions; and it signals a realtime byte
(rule R132), the event of a message it completes (rule R142, rule R143, rule R145, rule R148), and otherwise nothing
(rule R141, rule R144, rule R158, rule R159). -/
def Obligations.FollowsAbstractMachine : Prop :=
  ∀ (s : State) (b : Byte), s.Inv →
    ∃ t, decStep (some b) s = .next t ∧ t.abs = s.abs.after b ∧ t.ev = s.abs.signals b

/-- Rule R161: inserting a realtime byte anywhere changes no register and no channel event, and before a sequence it adds
exactly its own event in front. -/
def Obligations.InterleaveSafety : Prop :=
  ∀ (r : Byte) (pre x : List (Option Byte)) (s : State), 0xF8#8 ≤ r →
    (∃ t u es, feed x s = .next t ∧ feed (some r :: x) s = .next u ∧ { u with ev := t.ev, evLog := t.evLog } = t ∧
      t.evLog = s.evLog ++ es ∧ u.evLog = s.evLog ++ (.realtime r :: es)) ∧
    (∃ t u, feed (pre ++ x) s = .next t ∧ feed (pre ++ some r :: x) s = .next u ∧
      { u with ev := t.ev, evLog := t.evLog } = t ∧
      u.evLog.filter Event.isChannel = t.evLog.filter Event.isChannel)

/-- Rule R162: a channel event is signalled exactly on the last data byte of a note-off, note-on, control-change or
pitch-wheel message, and once. -/
def Obligations.ExactlyOnceDispatch : Prop :=
  (∀ (b : Byte) (s t : State), decStep (some b) s = .next t →
    (t.ev.isChannel = true ↔
      b ≤ 0x7F#8 ∧ s.pend = true ∧ s.rxs ∈ [0x80#8, 0x90#8, 0xB0#8, 0xE0#8]) ∧
    t.evLog = s.evLog ++ t.ev.logged) ∧
  (∀ s t : State, decStep none s = .next t → t.ev.isChannel = false) ∧
  (∀ (st : Byte) (n v : Data) (s : State), isChannelStatus st = true →
    st &&& 0xF0#8 ∈ [0x80#8, 0x90#8, 0xB0#8, 0xE0#8] →
    ∃ t e, feedBytes [st, dataByteOf n, dataByteOf v] s = .next t ∧ e.isChannel = true ∧ t.evLog = s.evLog ++ [e])

/-- Rule R163: after a system-common status byte, until the next channel status byte, realtime bytes are the only ones that
signal. -/
def Obligations.NoEventUnderSystemCommon : Prop :=
  ∀ (b : Byte) (x : List Byte) (s : State), 0xF0#8 ≤ b → b ≤ 0xF7#8 → (∀ c ∈ x, isChannelStatus c = false) →
    ∃ t, feedBytes (b :: x) s = .next t ∧ t.evLog = s.evLog ++ (x.filter isRealtimeByte).map Event.realtime

/-- Rule R203: after reset, data bytes are discarded and realtime bytes signalled until a status byte arrives. -/
def Obligations.DiscardAfterReset : Prop :=
  ∀ (x : List Byte) (s : State), (∀ c ∈ x, c ≤ 0x7F#8 ∨ 0xF8#8 ≤ c) →
    ∃ t, feedBytes x s.resetBlock = .next t ∧ t.rxs = NONE ∧ t.pend = false ∧ t.d1 = s.resetBlock.d1 ∧
      t.evLog = s.evLog ++ (x.filter isRealtimeByte).map Event.realtime

/-- A non-realtime status byte abandons whatever the decoder held (rule R141, rule R207): from then on the events and the
framing do not depend on the running status, the pending flag or the buffer before it. -/
def Obligations.StatusByteResynchronises : Prop :=
  ∀ (b : Byte) (x : List Byte) (s : State) (rxs : Byte) (pend : Bool) (d1 : Data), 0x80#8 ≤ b → b ≤ 0xF7#8 →
    ∃ t u, feedBytes (b :: x) s = .next t ∧
      feedBytes (b :: x) { s with rxs := rxs, pend := pend, d1 := d1 } = .next u ∧
      u.rxs = t.rxs ∧ u.pend = t.pend ∧ u.ev = t.ev ∧ u.evLog = t.evLog

/-! ## The encoder's commands -/

/-- Rule R103, rule R104 and rule R105: the three commands of two data bytes. -/
def Obligations.TwoByteCommands : Prop :=
  ∀ (s : State) (ch : Chan) (a b : Byte),
    (decodeCommand (0x0#4 ++ (ch ++ (a ++ b))) = .ok (.noteOff ch a b) ∧
      decodeCommand (0x1#4 ++ (ch ++ (a ++ b))) = .ok (.noteOn ch a b) ∧
      decodeCommand (0x3#4 ++ (ch ++ (a ++ b))) = .ok (.controlChange ch a b)) ∧
    exec (.noteOff ch a b) s =
      .next (s.afterSend (0x80#8 ||| ch.setWidth 8) [a &&& 0x7F#8, b &&& 0x7F#8]) ∧
    exec (.noteOn ch a b) s =
      .next (s.afterSend (0x90#8 ||| ch.setWidth 8) [a &&& 0x7F#8, b &&& 0x7F#8]) ∧
    exec (.controlChange ch a b) s =
      .next (s.afterSend (0xB0#8 ||| ch.setWidth 8) [a &&& 0x7F#8, b &&& 0x7F#8])

/-- Rule R106: channel aftertouch sends one data byte, and `p[15:8]` is ignored. -/
def Obligations.ChannelAftertouchCommand : Prop :=
  ∀ (s : State) (ch : Chan) (ignored pressure : Byte),
    decodeCommand (0x5#4 ++ (ch ++ (ignored ++ pressure))) = .ok (.channelAftertouch ch ignored pressure) ∧
    exec (.channelAftertouch ch ignored pressure) s =
      .next (s.afterSend (0xD0#8 ||| ch.setWidth 8) [pressure &&& 0x7F#8])

/-- Rule R107: the wire carries `v mod 16384`, low half first. -/
def Obligations.PitchWheelCommand : Prop :=
  ∀ (s : State) (ch : Chan) (v : Word16),
    decodeCommand (0x6#4 ++ (ch ++ v)) = .ok (.pitchWheel ch v) ∧
    exec (.pitchWheel ch v) s =
      .next (s.afterSend (0xE0#8 ||| ch.setWidth 8)
        [BitVec.ofNat 8 (v.toNat % 16384 % 128), BitVec.ofNat 8 (v.toNat % 16384 / 128)])

/-- Rule R108: PITCH_WHEEL of the re-centred value; the wire carries `(sv + 8192) mod 16384`, low half first. -/
def Obligations.PitchWheelSignedCommand : Prop :=
  ∀ (s : State) (ch : Chan) (sv : Int),
    (∀ p : Word16, decodeCommand (0x7#4 ++ (ch ++ p)) = .ok (.pitchWheelSigned ch p.toInt)) ∧
    exec (.pitchWheelSigned ch sv) s = exec (.pitchWheel ch (BitVec.ofNat 16 ((sv + 8192) % 65536).toNat)) s ∧
    exec (.pitchWheelSigned ch sv) s =
      .next (s.afterSend (0xE0#8 ||| ch.setWidth 8)
        [BitVec.ofNat 8 (((sv + 8192) % 16384).toNat % 128), BitVec.ofNat 8 (((sv + 8192) % 16384).toNat / 128)])

/-- Rule R109: MOD_WHEEL's two messages, for whatever controller numbers the configuration gives; the second one's status
byte is always elided. -/
def Obligations.ModWheelCommand : Prop :=
  ∀ (s : State) (ch : Chan) (v : Word16),
    decodeCommand (0x9#4 ++ (ch ++ v)) = .ok (.modWheel ch v) ∧
    exec (.modWheel ch v) s =
      .next (s.afterSend (0xB0#8 ||| ch.setWidth 8)
        [s.cfg.modLsbCc.setWidth 8, BitVec.ofNat 8 (v.toNat % 16384 % 128),
         s.cfg.modMsbCc.setWidth 8, BitVec.ofNat 8 (v.toNat % 16384 / 128)])

/-- Rule R80: the pseudo-instructions are their expansions; MOD_WHEEL is its two control changes, emitted together. -/
def Obligations.PseudoInstructions : Prop :=
  (∀ (s : State) (ch : Chan) (sv : Int),
    exec (.pitchWheelSigned ch sv) s = exec (.pitchWheel ch (BitVec.ofInt 16 (sv + 8192))) s) ∧
  (∀ (s : State) (ch : Chan) (v : Word16), ∃ t u,
    exec (.controlChange ch (s.cfg.modLsbCc.setWidth 8) ((v.extractLsb' 0 7).setWidth 8)) s = .next t ∧
    exec (.controlChange ch (s.cfg.modMsbCc.setWidth 8) ((v.extractLsb' 7 7).setWidth 8)) t = .next u ∧
    exec (.modWheel ch v) s = .next { u with txOut := t.txOut ++ u.txOut })

/-- Rule R110 with rule R111 to rule R116: a realtime command emits its byte and changes no register. -/
def Obligations.RealtimeCommands : Prop :=
  ∀ (s : State) (ch : Chan) (p : Word16),
    (decodeCommand (0x8#4 ++ (ch ++ p)) = .ok (.rtTimingClock ch p) ∧
      decodeCommand (0xA#4 ++ (ch ++ p)) = .ok (.rtStart ch p) ∧
      decodeCommand (0xB#4 ++ (ch ++ p)) = .ok (.rtContinue ch p) ∧
      decodeCommand (0xC#4 ++ (ch ++ p)) = .ok (.rtStop ch p) ∧
      decodeCommand (0xE#4 ++ (ch ++ p)) = .ok (.rtActiveSensing ch p) ∧
      decodeCommand (0xF#4 ++ (ch ++ p)) = .ok (.rtReset ch p)) ∧
    exec (.rtTimingClock ch p) s = .next { s with txOut := [0xF8#8], txLog := s.txLog ++ [0xF8#8] } ∧
    exec (.rtStart ch p) s = .next { s with txOut := [0xFA#8], txLog := s.txLog ++ [0xFA#8] } ∧
    exec (.rtContinue ch p) s = .next { s with txOut := [0xFB#8], txLog := s.txLog ++ [0xFB#8] } ∧
    exec (.rtStop ch p) s = .next { s with txOut := [0xFC#8], txLog := s.txLog ++ [0xFC#8] } ∧
    exec (.rtActiveSensing ch p) s = .next { s with txOut := [0xFE#8], txLog := s.txLog ++ [0xFE#8] } ∧
    exec (.rtReset ch p) s = .next { s with txOut := [0xFF#8], txLog := s.txLog ++ [0xFF#8] }

/-! ## The encoder as a whole -/

/-- The frame of the 13 commands (rule R34): the decoder's side, the configuration and the inputs are unchanged, the stream
grows by exactly the step's bytes, and `TXS` is the channel status sent, or unchanged (rule R23). -/
def Obligations.EncoderFrame : Prop :=
  ∀ (i : Instr) (s t : State), i.isRx = false → exec i s = .next t →
    t.rxs = s.rxs ∧ t.pend = s.pend ∧ t.d1 = s.d1 ∧ t.ev = s.ev ∧ t.evLog = s.evLog ∧ t.cfg = s.cfg ∧
    t.rxIn = s.rxIn ∧ t.cmdIn = s.cmdIn ∧ t.turns = s.turns ∧ t.txLog = s.txLog ++ t.txOut ∧
    t.txs = i.txStatus.getD s.txs

/-- Rule R119: how many bytes each command emits. -/
def Obligations.OutputLengths : Prop :=
  ∀ (i : Instr) (s t : State), exec i s = .next t →
    (∀ st, i.txStatus = some st → t.txOut.length = i.txDataLength + (if s.txs = st then 0 else 1)) ∧
    (∀ b, i.txRealtime = some b → t.txOut = [b])

/-- Rule R121: with any realtime commands between, a second channel command of the same status byte sends only data bytes,
and one of another status byte sends its full status byte first. -/
def Obligations.ElisionLaws : Prop :=
  ∀ (i j : Instr) (rts : List Instr) (st st' : Byte) (s : State),
    i.txStatus = some st → j.txStatus = some st' → (∀ r ∈ rts, r.txRealtime.isSome = true) →
    ∃ t u, runInstrs (i :: rts) s = .next t ∧ exec j t = .next u ∧
      (st = st' → u.txOut.length = j.txDataLength ∧ ∀ x ∈ u.txOut, x ≤ 0x7F#8) ∧
      (st ≠ st' → ∃ data, u.txOut = st' :: data ∧ data.length = j.txDataLength ∧ ∀ x ∈ data, x ≤ 0x7F#8)

/-- Rule R204: after reset, whatever realtime commands and input bytes come before it, the first channel command emits its
full status byte. -/
def Obligations.FullStatusAfterReset : Prop :=
  ∀ (i : Instr) (before : List Instr) (st : Byte) (s : State), i.txStatus = some st →
    (∀ j ∈ before, j.txStatus = none) →
    ∃ t u, runInstrs before s.resetBlock = .next t ∧ exec i t = .next u ∧ u.txOut.head? = some st

/-- Rule R53: a decoder step and an encoder step commute, to the last field; a refused command is refused in both orders. -/
def Obligations.UnitsCommute : Prop :=
  ∀ (r : Option Byte) (c : Option Word24) (s : State), ∃ u, decStep r s = .next u ∧
    (∀ t, encStep c s = .next t → ∃ v, decStep r t = .next v ∧ encStep c u = .next v) ∧
    (∀ e, encStep c s = .refused e → encStep c u = .refused e)

/-! ## Invariants and whole-machine rules -/

/-- The invariant holds after reset. -/
def Obligations.InvAtReset : Prop := State.reset.Inv

/-- Every step keeps the invariant: rule R20, rule R21 and rule R25, from every state that meets them. -/
def Obligations.StepKeepsInv : Prop :=
  ∀ s t : State, s.Inv → step s = .next t → t.Inv

/-- Rule R186: the block never originates a byte: the output stream grows only on an encoder turn that takes a command. -/
def Obligations.BytesAnswerCommands : Prop :=
  ∀ s t : State, step s = .next t →
    ∃ bs, t.txLog = s.txLog ++ bs ∧
      (bs ≠ [] → s.turns.head? = some .encoder ∧ ∃ w q, s.cmdIn = some w :: q)

/-- Events come from the decoder alone, at most one a step, and only from a byte it takes (rule R50, rule R183). -/
def Obligations.EventsAnswerBytes : Prop :=
  ∀ s t : State, step s = .next t →
    ∃ es, t.evLog = s.evLog ++ es ∧ es.length ≤ 1 ∧
      (es ≠ [] → s.turns.head? = some .decoder ∧ ∃ b q, s.rxIn = some b :: q)

/-- Rule R201: nothing but a reset clears the transmitted running status, whatever byte arrives and whatever command runs;
and no step writes the configuration arguments (rule R4). -/
def Obligations.OnlyResetClearsTxs : Prop :=
  ∀ s t : State, step s = .next t →
    t.cfg = s.cfg ∧ (s.turns.head? ≠ some .reset → s.txs ≠ NONE → t.txs ≠ NONE)

/-- Rule R18 and rule R30: the state tag and the diagnostic tuple, by the registers. -/
def Obligations.DiagnosticTuple : Prop :=
  ∀ s : State,
    s.tag = (if s.pend = true then 2#2 else if s.rxs ≠ NONE then 1#2 else 0#2) ∧
    s.diag.txs = s.txs ∧ s.diag.rxs = s.rxs ∧ s.diag.pend.toNat = s.pend.toNat ∧ s.diag.tag.toNat = s.tag.toNat ∧
    (s.tag = 0#2 ↔ s.abs = .noStatus) ∧ (s.tag = 1#2 ↔ s.abs = .awaitingFirst s.rxs)

/-- What the host presents runs in order: the steps of a presented stream of polls are the decoder's steps on it, and
likewise for commands (rule R33, rule R79; the ports as data are the model's form, log entry 3). -/
def Obligations.PresentedInputsRunInOrder : Prop :=
  (∀ (polls : List (Option Byte)) (s : State), s.turns = [] → s.rxIn = [] →
    core.run polls.length (s.presentPolls polls) = feed polls s) ∧
  (∀ (commands : List (Option Word24)) (s : State), s.turns = [] → s.cmdIn = [] →
    core.run commands.length (s.presentCommands commands) = runAll encStep commands s)

/-- PR5 of 95_test_vectors.md: a fresh decoder fed the bytes of any sequence of commands, each of a kind that has an event,
signals exactly their events, in command order. The transport between them is assumed to deliver every byte
(log entry 11). -/
def Obligations.Loopback : Prop :=
  ∀ commands : List Instr, (∀ i ∈ commands, i.loopEvent.isSome = true) →
    ∃ t u, runInstrs commands State.reset = .next t ∧ feedBytes t.txLog State.reset = .next u ∧
      u.evLog = commands.filterMap Instr.loopEvent

/-- Rule R210: a mod-wheel value reaches a decoder as two control changes, low half first. The decoder may be in any state
where the encoder sends its status byte, and must hold the control-change family where that byte is elided. The transport
between them is assumed to deliver every byte (log entry 11). -/
def Obligations.ModWheelArrivesAsTwoControlChanges : Prop :=
  ∀ (s d : State) (ch : Chan) (v : Word16),
    (s.txs = 0xB0#8 ||| ch.setWidth 8 → d.rxs = 0xB0#8 ∧ d.pend = false) →
    ∃ t u, exec (.modWheel ch v) s = .next t ∧ feedBytes t.txOut d = .next u ∧
      u.evLog = d.evLog ++ [.controlChange s.cfg.modLsbCc (v.extractLsb' 0 7),
        .controlChange s.cfg.modMsbCc (v.extractLsb' 7 7)]
end

