-- ==== Sys2Proof/Laws/State.lean ====
section
/-! SUPPORT. One lemma per field per primitive update, so that no later proof unfolds a record update, and what the
reset state holds field by field. -/

namespace Sys2Proof.Machine

/-! What `setRxs` leaves in each field. -/

@[simp] theorem State.setRxs_rxs (s : State) (v : Byte) : (s.setRxs v).rxs = v := rfl
@[simp] theorem State.setRxs_pend (s : State) (v : Byte) : (s.setRxs v).pend = s.pend := rfl
@[simp] theorem State.setRxs_d1 (s : State) (v : Byte) : (s.setRxs v).d1 = s.d1 := rfl
@[simp] theorem State.setRxs_txs (s : State) (v : Byte) : (s.setRxs v).txs = s.txs := rfl
@[simp] theorem State.setRxs_cfg (s : State) (v : Byte) : (s.setRxs v).cfg = s.cfg := rfl
@[simp] theorem State.setRxs_ev (s : State) (v : Byte) : (s.setRxs v).ev = s.ev := rfl
@[simp] theorem State.setRxs_evLog (s : State) (v : Byte) : (s.setRxs v).evLog = s.evLog := rfl
@[simp] theorem State.setRxs_txOut (s : State) (v : Byte) : (s.setRxs v).txOut = s.txOut := rfl
@[simp] theorem State.setRxs_txLog (s : State) (v : Byte) : (s.setRxs v).txLog = s.txLog := rfl
@[simp] theorem State.setRxs_rxIn (s : State) (v : Byte) : (s.setRxs v).rxIn = s.rxIn := rfl
@[simp] theorem State.setRxs_cmdIn (s : State) (v : Byte) : (s.setRxs v).cmdIn = s.cmdIn := rfl
@[simp] theorem State.setRxs_turns (s : State) (v : Byte) : (s.setRxs v).turns = s.turns := rfl

/-! What `setPend` leaves in each field. -/

@[simp] theorem State.setPend_rxs (s : State) (v : Bool) : (s.setPend v).rxs = s.rxs := rfl
@[simp] theorem State.setPend_pend (s : State) (v : Bool) : (s.setPend v).pend = v := rfl
@[simp] theorem State.setPend_d1 (s : State) (v : Bool) : (s.setPend v).d1 = s.d1 := rfl
@[simp] theorem State.setPend_txs (s : State) (v : Bool) : (s.setPend v).txs = s.txs := rfl
@[simp] theorem State.setPend_cfg (s : State) (v : Bool) : (s.setPend v).cfg = s.cfg := rfl
@[simp] theorem State.setPend_ev (s : State) (v : Bool) : (s.setPend v).ev = s.ev := rfl
@[simp] theorem State.setPend_evLog (s : State) (v : Bool) : (s.setPend v).evLog = s.evLog := rfl
@[simp] theorem State.setPend_txOut (s : State) (v : Bool) : (s.setPend v).txOut = s.txOut := rfl
@[simp] theorem State.setPend_txLog (s : State) (v : Bool) : (s.setPend v).txLog = s.txLog := rfl
@[simp] theorem State.setPend_rxIn (s : State) (v : Bool) : (s.setPend v).rxIn = s.rxIn := rfl
@[simp] theorem State.setPend_cmdIn (s : State) (v : Bool) : (s.setPend v).cmdIn = s.cmdIn := rfl
@[simp] theorem State.setPend_turns (s : State) (v : Bool) : (s.setPend v).turns = s.turns := rfl

/-! What `setD1` leaves in each field. -/

@[simp] theorem State.setD1_rxs (s : State) (d : Data) : (s.setD1 d).rxs = s.rxs := rfl
@[simp] theorem State.setD1_pend (s : State) (d : Data) : (s.setD1 d).pend = s.pend := rfl
@[simp] theorem State.setD1_d1 (s : State) (d : Data) : (s.setD1 d).d1 = d := rfl
@[simp] theorem State.setD1_txs (s : State) (d : Data) : (s.setD1 d).txs = s.txs := rfl
@[simp] theorem State.setD1_cfg (s : State) (d : Data) : (s.setD1 d).cfg = s.cfg := rfl
@[simp] theorem State.setD1_ev (s : State) (d : Data) : (s.setD1 d).ev = s.ev := rfl
@[simp] theorem State.setD1_evLog (s : State) (d : Data) : (s.setD1 d).evLog = s.evLog := rfl
@[simp] theorem State.setD1_txOut (s : State) (d : Data) : (s.setD1 d).txOut = s.txOut := rfl
@[simp] theorem State.setD1_txLog (s : State) (d : Data) : (s.setD1 d).txLog = s.txLog := rfl
@[simp] theorem State.setD1_rxIn (s : State) (d : Data) : (s.setD1 d).rxIn = s.rxIn := rfl
@[simp] theorem State.setD1_cmdIn (s : State) (d : Data) : (s.setD1 d).cmdIn = s.cmdIn := rfl
@[simp] theorem State.setD1_turns (s : State) (d : Data) : (s.setD1 d).turns = s.turns := rfl

/-! What `setTxs` leaves in each field. -/

@[simp] theorem State.setTxs_rxs (s : State) (v : Byte) : (s.setTxs v).rxs = s.rxs := rfl
@[simp] theorem State.setTxs_pend (s : State) (v : Byte) : (s.setTxs v).pend = s.pend := rfl
@[simp] theorem State.setTxs_d1 (s : State) (v : Byte) : (s.setTxs v).d1 = s.d1 := rfl
@[simp] theorem State.setTxs_txs (s : State) (v : Byte) : (s.setTxs v).txs = v := rfl
@[simp] theorem State.setTxs_cfg (s : State) (v : Byte) : (s.setTxs v).cfg = s.cfg := rfl
@[simp] theorem State.setTxs_ev (s : State) (v : Byte) : (s.setTxs v).ev = s.ev := rfl
@[simp] theorem State.setTxs_evLog (s : State) (v : Byte) : (s.setTxs v).evLog = s.evLog := rfl
@[simp] theorem State.setTxs_txOut (s : State) (v : Byte) : (s.setTxs v).txOut = s.txOut := rfl
@[simp] theorem State.setTxs_txLog (s : State) (v : Byte) : (s.setTxs v).txLog = s.txLog := rfl
@[simp] theorem State.setTxs_rxIn (s : State) (v : Byte) : (s.setTxs v).rxIn = s.rxIn := rfl
@[simp] theorem State.setTxs_cmdIn (s : State) (v : Byte) : (s.setTxs v).cmdIn = s.cmdIn := rfl
@[simp] theorem State.setTxs_turns (s : State) (v : Byte) : (s.setTxs v).turns = s.turns := rfl

/-! What `signal` leaves in each field. -/

@[simp] theorem State.signal_rxs (s : State) (e : Event) : (s.signal e).rxs = s.rxs := rfl
@[simp] theorem State.signal_pend (s : State) (e : Event) : (s.signal e).pend = s.pend := rfl
@[simp] theorem State.signal_d1 (s : State) (e : Event) : (s.signal e).d1 = s.d1 := rfl
@[simp] theorem State.signal_txs (s : State) (e : Event) : (s.signal e).txs = s.txs := rfl
@[simp] theorem State.signal_cfg (s : State) (e : Event) : (s.signal e).cfg = s.cfg := rfl
@[simp] theorem State.signal_ev (s : State) (e : Event) : (s.signal e).ev = e := rfl
@[simp] theorem State.signal_evLog (s : State) (e : Event) : (s.signal e).evLog = s.evLog ++ e.logged := rfl
@[simp] theorem State.signal_txOut (s : State) (e : Event) : (s.signal e).txOut = s.txOut := rfl
@[simp] theorem State.signal_txLog (s : State) (e : Event) : (s.signal e).txLog = s.txLog := rfl
@[simp] theorem State.signal_rxIn (s : State) (e : Event) : (s.signal e).rxIn = s.rxIn := rfl
@[simp] theorem State.signal_cmdIn (s : State) (e : Event) : (s.signal e).cmdIn = s.cmdIn := rfl
@[simp] theorem State.signal_turns (s : State) (e : Event) : (s.signal e).turns = s.turns := rfl

/-! What `emit` leaves in each field. -/

@[simp] theorem State.emit_rxs (s : State) (bs : List Byte) : (s.emit bs).rxs = s.rxs := rfl
@[simp] theorem State.emit_pend (s : State) (bs : List Byte) : (s.emit bs).pend = s.pend := rfl
@[simp] theorem State.emit_d1 (s : State) (bs : List Byte) : (s.emit bs).d1 = s.d1 := rfl
@[simp] theorem State.emit_txs (s : State) (bs : List Byte) : (s.emit bs).txs = s.txs := rfl
@[simp] theorem State.emit_cfg (s : State) (bs : List Byte) : (s.emit bs).cfg = s.cfg := rfl
@[simp] theorem State.emit_ev (s : State) (bs : List Byte) : (s.emit bs).ev = s.ev := rfl
@[simp] theorem State.emit_evLog (s : State) (bs : List Byte) : (s.emit bs).evLog = s.evLog := rfl
@[simp] theorem State.emit_txOut (s : State) (bs : List Byte) : (s.emit bs).txOut = bs := rfl
@[simp] theorem State.emit_txLog (s : State) (bs : List Byte) : (s.emit bs).txLog = s.txLog ++ bs := rfl
@[simp] theorem State.emit_rxIn (s : State) (bs : List Byte) : (s.emit bs).rxIn = s.rxIn := rfl
@[simp] theorem State.emit_cmdIn (s : State) (bs : List Byte) : (s.emit bs).cmdIn = s.cmdIn := rfl
@[simp] theorem State.emit_turns (s : State) (bs : List Byte) : (s.emit bs).turns = s.turns := rfl

/-! What `resetBlock` leaves in each field. -/

@[simp] theorem State.resetBlock_rxs (s : State) : s.resetBlock.rxs = NONE := rfl
@[simp] theorem State.resetBlock_pend (s : State) : s.resetBlock.pend = false := rfl
@[simp] theorem State.resetBlock_d1 (s : State) : s.resetBlock.d1 = Config.d1AtReset := rfl
@[simp] theorem State.resetBlock_txs (s : State) : s.resetBlock.txs = NONE := rfl
@[simp] theorem State.resetBlock_cfg (s : State) : s.resetBlock.cfg = s.cfg := rfl
@[simp] theorem State.resetBlock_ev (s : State) : s.resetBlock.ev = .none := rfl
@[simp] theorem State.resetBlock_evLog (s : State) : s.resetBlock.evLog = s.evLog := rfl
@[simp] theorem State.resetBlock_txOut (s : State) : s.resetBlock.txOut = [] := rfl
@[simp] theorem State.resetBlock_txLog (s : State) : s.resetBlock.txLog = s.txLog := rfl
@[simp] theorem State.resetBlock_rxIn (s : State) : s.resetBlock.rxIn = s.rxIn := rfl
@[simp] theorem State.resetBlock_cmdIn (s : State) : s.resetBlock.cmdIn = s.cmdIn := rfl
@[simp] theorem State.resetBlock_turns (s : State) : s.resetBlock.turns = s.turns := rfl

/-! The reset state (70_reset_and_hazards.md rule R200). -/

@[simp] theorem State.reset_rxs : State.reset.rxs = NONE := rfl
@[simp] theorem State.reset_pend : State.reset.pend = false := rfl
@[simp] theorem State.reset_d1 : State.reset.d1 = Config.d1AtReset := rfl
@[simp] theorem State.reset_txs : State.reset.txs = NONE := rfl
@[simp] theorem State.reset_cfg : State.reset.cfg = Config.default := rfl
@[simp] theorem State.reset_ev : State.reset.ev = .none := rfl
@[simp] theorem State.reset_evLog : State.reset.evLog = [] := rfl
@[simp] theorem State.reset_txOut : State.reset.txOut = [] := rfl
@[simp] theorem State.reset_txLog : State.reset.txLog = [] := rfl
@[simp] theorem State.reset_rxIn : State.reset.rxIn = [] := rfl
@[simp] theorem State.reset_cmdIn : State.reset.cmdIn = [] := rfl
@[simp] theorem State.reset_turns : State.reset.turns = [] := rfl

/-! The events a signal records. -/

@[simp] theorem Event.logged_none : Event.logged .none = [] := rfl
@[simp] theorem Event.logged_noteOn (n v : Data) : (Event.noteOn n v).logged = [.noteOn n v] := rfl
@[simp] theorem Event.logged_noteOff (n v : Data) : (Event.noteOff n v).logged = [.noteOff n v] := rfl
@[simp] theorem Event.logged_controlChange (c v : Data) :
    (Event.controlChange c v).logged = [.controlChange c v] := rfl
@[simp] theorem Event.logged_pitchWheel (l m : Data) : (Event.pitchWheel l m).logged = [.pitchWheel l m] := rfl
@[simp] theorem Event.logged_realtime (b : Byte) : (Event.realtime b).logged = [.realtime b] := rfl

end Sys2Proof.Machine
end

