-- ==== Sys2Proof/Laws/Ops.lean ====
section
/-! SUPPORT. What each shared operation does, said once. -/

namespace Sys2Proof.Machine

/-! Families and status bytes (30_encoding.md rule R62, rule R64). -/

theorem famOf_channel_status (b : Byte) (h : b ≤ 0xEF#8) : famOf b = b &&& 0xF0#8 := by
  simp [famOf, h]

@[simp] theorem famOf_statusByteOf_0x80 : ∀ ch : Chan, famOf (statusByteOf 0x80#8 ch) = 0x80#8 := by decide
@[simp] theorem famOf_statusByteOf_0x90 : ∀ ch : Chan, famOf (statusByteOf 0x90#8 ch) = 0x90#8 := by decide
@[simp] theorem famOf_statusByteOf_0xA0 : ∀ ch : Chan, famOf (statusByteOf 0xA0#8 ch) = 0xA0#8 := by decide
@[simp] theorem famOf_statusByteOf_0xB0 : ∀ ch : Chan, famOf (statusByteOf 0xB0#8 ch) = 0xB0#8 := by decide
@[simp] theorem famOf_statusByteOf_0xC0 : ∀ ch : Chan, famOf (statusByteOf 0xC0#8 ch) = 0xC0#8 := by decide
@[simp] theorem famOf_statusByteOf_0xD0 : ∀ ch : Chan, famOf (statusByteOf 0xD0#8 ch) = 0xD0#8 := by decide
@[simp] theorem famOf_statusByteOf_0xE0 : ∀ ch : Chan, famOf (statusByteOf 0xE0#8 ch) = 0xE0#8 := by decide

/-- A status byte of a channel command is a channel status, and so never `NONE`. -/
theorem isChannelStatus_txStatus (i : Instr) (b : Byte) (h : i.txStatus = some b) : isChannelStatus b = true := by
  have k : ∀ ch : Chan,
      isChannelStatus (statusByteOf 0x80#8 ch) = true ∧ isChannelStatus (statusByteOf 0x90#8 ch) = true ∧
      isChannelStatus (statusByteOf 0xB0#8 ch) = true ∧ isChannelStatus (statusByteOf 0xD0#8 ch) = true ∧
      isChannelStatus (statusByteOf 0xE0#8 ch) = true := by decide
  cases i <;> simp only [Instr.txStatus, Option.some.injEq, reduceCtorEq] at h <;> subst h <;> simp [k]

/-! The composed operations of the decoder, as one update each. -/

theorem State.emptyPoll_eq (s : State) : s.emptyPoll = { s with ev := .none } := by
  simp [State.emptyPoll, State.signal]

theorem State.rtByte_eq (s : State) (b : Byte) :
    s.rtByte b = { s with ev := .realtime b, evLog := s.evLog ++ [.realtime b] } := rfl

theorem State.statusByte_eq (s : State) (b : Byte) :
    s.statusByte b = { s with rxs := famOf b, pend := false, ev := .none } := by
  simp [State.statusByte, State.signal, State.setPend, State.setRxs]

theorem State.firstData_twoBytes (s : State) (d : Data) (h : framingOf s.rxs = .twoBytes) :
    s.firstData d = { s with d1 := d, pend := true, ev := .none } := by
  simp [State.firstData, h, State.signal, State.setPend, State.setD1]

theorem State.firstData_oneByte (s : State) (d : Data) (h : framingOf s.rxs = .oneByte) :
    s.firstData d = { s with d1 := d, ev := .none } := by
  simp [State.firstData, h, State.signal, State.setD1]

theorem State.firstData_quirk (s : State) (d : Data) (h : framingOf s.rxs = .quirk) :
    s.firstData d = { s with d1 := d, rxs := NONE, pend := true, ev := .none } := by
  simp [State.firstData, h, State.signal, State.setPend, State.setRxs, State.setD1]

theorem State.firstData_terminus (s : State) (d : Data) (h : framingOf s.rxs = .terminus) :
    s.firstData d = { s with rxs := NONE, ev := .none } := by
  simp [State.firstData, h, State.signal, State.setRxs]

theorem State.secondData_eq (s : State) (d : Data) :
    s.secondData d =
      { s with
        rxs := secondStatus s.rxs
        ev := secondEvent s.rxs s.d1 d
        evLog := s.evLog ++ (secondEvent s.rxs s.d1 d).logged } := rfl

theorem State.dataByte_second (s : State) (d : Data) (h : s.pend = true) :
    s.dataByte d = (s.setPend false).secondData d := by
  simp [State.dataByte, h]

theorem State.dataByte_stray (s : State) (d : Data) (h : s.pend = false) (h' : s.rxs = NONE) :
    s.dataByte d = { s with ev := .none } := by
  simp [State.dataByte, h, h', State.signal]

theorem State.dataByte_first (s : State) (d : Data) (h : s.pend = false) (h' : s.rxs ≠ NONE) :
    s.dataByte d = s.firstData d := by
  simp [State.dataByte, h, h']

/-- Everything a data byte can do: be the second, be stray, or be a first one under one of the four framings. -/
theorem State.dataByte_cases (s : State) (d : Data) :
    (s.pend = true ∧ s.dataByte d =
      { s with
        pend := false
        rxs := secondStatus s.rxs
        ev := secondEvent s.rxs s.d1 d
        evLog := s.evLog ++ (secondEvent s.rxs s.d1 d).logged }) ∨
    (s.pend = false ∧ s.rxs = NONE ∧ s.dataByte d = { s with ev := .none }) ∨
    (s.pend = false ∧ s.rxs ≠ NONE ∧ framingOf s.rxs = .twoBytes ∧
      s.dataByte d = { s with d1 := d, pend := true, ev := .none }) ∨
    (s.pend = false ∧ s.rxs ≠ NONE ∧ framingOf s.rxs = .oneByte ∧ s.dataByte d = { s with d1 := d, ev := .none }) ∨
    (s.pend = false ∧ s.rxs ≠ NONE ∧ framingOf s.rxs = .quirk ∧
      s.dataByte d = { s with d1 := d, rxs := NONE, pend := true, ev := .none }) ∨
    (s.pend = false ∧ s.rxs ≠ NONE ∧ framingOf s.rxs = .terminus ∧
      s.dataByte d = { s with rxs := NONE, ev := .none }) := by
  by_cases hp : s.pend = true
  · refine .inl ⟨hp, ?_⟩
    rw [State.dataByte_second s d hp, State.secondData_eq]
    rfl
  have hp : s.pend = false := by simpa using hp
  by_cases hr : s.rxs = NONE
  · exact .inr (.inl ⟨hp, hr, State.dataByte_stray s d hp hr⟩)
  rw [State.dataByte_first s d hp hr]
  cases hf : framingOf s.rxs with
  | twoBytes => exact .inr (.inr (.inl ⟨hp, hr, rfl, State.firstData_twoBytes s d hf⟩))
  | oneByte => exact .inr (.inr (.inr (.inl ⟨hp, hr, rfl, State.firstData_oneByte s d hf⟩)))
  | quirk => exact .inr (.inr (.inr (.inr (.inl ⟨hp, hr, rfl, State.firstData_quirk s d hf⟩))))
  | terminus => exact .inr (.inr (.inr (.inr (.inr ⟨hp, hr, rfl, State.firstData_terminus s d hf⟩))))

/-! The composed operations of the encoder. -/

theorem State.idleCommand_eq (s : State) : s.idleCommand = { s with txOut := [] } := by
  simp [State.idleCommand, State.emit]

theorem State.sendRealtime_eq (s : State) (b : Byte) :
    s.sendRealtime b = { s with txOut := [b], txLog := s.txLog ++ [b] } := rfl

theorem State.sendChannel_elided (s : State) (f : Byte) (ch : Chan) (data : List Byte)
    (h : statusByteOf f ch = s.txs) : s.sendChannel f ch data = (data, s) := by
  simp [State.sendChannel, h]

theorem State.sendChannel_full (s : State) (f : Byte) (ch : Chan) (data : List Byte)
    (h : statusByteOf f ch ≠ s.txs) :
    s.sendChannel f ch data = (statusByteOf f ch :: data, s.setTxs (statusByteOf f ch)) := by
  simp [State.sendChannel, h]

/-- `SendChannel` leaves `TXS` at its status byte and every other field as it was. -/
theorem State.sendChannel_state (s : State) (f : Byte) (ch : Chan) (data : List Byte) :
    (s.sendChannel f ch data).2 = s.setTxs (statusByteOf f ch) := by
  by_cases h : statusByteOf f ch = s.txs
  · rw [State.sendChannel_elided s f ch data h, h]
    rfl
  · rw [State.sendChannel_full s f ch data h]

theorem State.sendMessage_eq (s : State) (f : Byte) (ch : Chan) (data : List Byte) :
    s.sendMessage f ch data = s.afterSend (statusByteOf f ch) data := by
  by_cases h : statusByteOf f ch = s.txs
  · simp [State.sendMessage, State.sendChannel_elided s f ch data h, State.afterSend, State.emit, h]
  · simp [State.sendMessage, State.sendChannel_full s f ch data h, State.afterSend, State.emit, State.setTxs,
      Ne.symm h]

/-! Masks and halves (40_encoder.md rule R102, rule R107). -/

theorem mask7_dataByteOf : ∀ d : Data, mask7 (dataByteOf d) = dataByteOf d := by decide

theorem State.sendModWheel_eq (s : State) (ch : Chan) (v : Word16) :
    s.sendModWheel ch v = s.afterSend (statusByteOf 0xB0#8 ch)
      [dataByteOf s.cfg.modLsbCc, lsbOf v, dataByteOf s.cfg.modMsbCc, msbOf v] := by
  by_cases h : statusByteOf 0xB0#8 ch = s.txs
  · simp [State.sendModWheel, State.sendChannel, State.afterSend, State.emit, h, mask7_dataByteOf]
  · simp [State.sendModWheel, State.sendChannel, State.afterSend, State.emit, State.setTxs, h, Ne.symm h,
      mask7_dataByteOf]

/-! Reset (70_reset_and_hazards.md rule R200). -/

theorem State.resetBlock_idem (s : State) : s.resetBlock.resetBlock = s.resetBlock := rfl

/-! What a state's next turn presents. -/

theorem State.present_decoder (s : State) (ts : List Turn) (h : s.turns = .decoder :: ts) :
    s.present = .poll ({ s with turns := ts }.takePoll).1 ({ s with turns := ts }.takePoll).2 := by
  simp [State.present, h]

theorem State.present_encoder (s : State) (ts : List Turn) (h : s.turns = .encoder :: ts) :
    s.present = .command ({ s with turns := ts }.takeCommand).1 ({ s with turns := ts }.takeCommand).2 := by
  simp [State.present, h]

theorem State.present_reset (s : State) (ts : List Turn) (h : s.turns = .reset :: ts) :
    s.present = .reset { s with turns := ts } := by
  simp [State.present, h]

theorem State.present_nested (s : State) (ts : List Turn) (h : s.turns = .nestedDecoder :: ts) :
    s.present = .nested := by
  simp [State.present, h]

theorem State.present_empty (s : State) (h : s.turns = []) : s.present = .poll none s := by
  simp [State.present, h]

theorem State.takePoll_nil (s : State) (h : s.rxIn = []) : s.takePoll = (none, s) := by
  simp [State.takePoll, h]

theorem State.takePoll_cons (s : State) (r : Option Byte) (q : List (Option Byte)) (h : s.rxIn = r :: q) :
    s.takePoll = (r, { s with rxIn := q }) := by
  simp [State.takePoll, h]

theorem State.takeCommand_nil (s : State) (h : s.cmdIn = []) : s.takeCommand = (none, s) := by
  simp [State.takeCommand, h]

theorem State.takeCommand_cons (s : State) (c : Option Word24) (q : List (Option Word24)) (h : s.cmdIn = c :: q) :
    s.takeCommand = (c, { s with cmdIn := q }) := by
  simp [State.takeCommand, h]

/-! Runs of several steps. -/

@[simp] theorem runAll_nil {α : Type} (f : α → State → Result) (s : State) : runAll f [] s = .next s := rfl

theorem runAll_cons {α : Type} (f : α → State → Result) (a : α) (rest : List α) (s t : State)
    (h : f a s = .next t) : runAll f (a :: rest) s = runAll f rest t := by
  simp [runAll, h]

theorem runAll_append {α : Type} (f : α → State → Result) (xs ys : List α) (s t : State)
    (h : runAll f xs s = .next t) : runAll f (xs ++ ys) s = runAll f ys t := by
  induction xs generalizing s with
  | nil =>
    cases h
    rfl
  | cons a rest ih =>
    cases ha : f a s with
    | next u =>
      rw [runAll_cons f a rest s u ha] at h
      rw [List.cons_append, runAll_cons f a _ s u ha]
      exact ih u h
    | fault r => simp [runAll, ha] at h
    | refused r => simp [runAll, ha] at h

end Sys2Proof.Machine
end

