-- ==== Sys2Proof/Laws/Decode.lean ====
section
/-! SUPPORT. What the byte decoder answers for each class of byte, and what a decoder step then does. -/

namespace Sys2Proof.Machine

/-- A data byte decodes to RX_DATA of its value (30_encoding.md rule R61). -/
theorem decodeByte_data (b : Byte) (h : b &&& 0x80#8 = 0x00#8) : decodeByte b = .rxData (dataOf b) := by
  simp [decodeByte, h]

theorem decodeByte_dataByteOf : ∀ d : Data, decodeByte (dataByteOf d) = .rxData d := by decide

/-- Every byte's instruction belongs to the decoder. -/
theorem decodeByte_isRx : ∀ b : Byte, (decodeByte b).isRx = true := by decide

theorem decStep_some (b : Byte) (s : State) : decStep (some b) s = exec (decodeByte b) s := rfl

theorem decStep_none (s : State) : decStep none s = .next { s with ev := .none } := by
  rw [← State.emptyPoll_eq]
  rfl

theorem decStep_dataByteOf (d : Data) (s : State) : decStep (some (dataByteOf d)) s = .next (s.dataByte d) := by
  rw [decStep_some, decodeByte_dataByteOf]
  rfl

end Sys2Proof.Machine
end

