-- ==== Sys2Proof/Laws/PerInstr.lean ====
section
/-! SUPPORT. The per-instruction family TableRow: every instruction's encoding has the width of its row of
spec/opcode_table.json and carries the row's fixed bits. -/

namespace Sys2Proof.Laws.TableRow

/-- The encoding has the width of the instruction's row, and its bits under the row's mask are the row's match
(30_encoding.md rule R81, rule R82). -/
def Statement (i : Instr) : Prop :=
  (encode i).width = i.tableRow.1 ∧ (encode i).bits &&& i.tableRow.2.2 = i.tableRow.2.1

theorem commandWord_masked (op : BitVec 4) (ch : Chan) (p : Word16) :
    (commandWord op ch p).toNat &&& 0xF00000 = op.toNat <<< 20 := by
  have h : commandWord op ch p &&& 0xF00000#24 = op.setWidth 24 <<< 20 := by
    apply BitVec.eq_of_getLsbD_eq
    intro i hi
    simp only [commandWord, BitVec.getLsbD_and, BitVec.getLsbD_append, BitVec.getLsbD_shiftLeft,
      BitVec.getLsbD_setWidth]
    interval_cases i <;> simp
  have h' := congrArg BitVec.toNat h
  have hop : op.toNat < 16 := op.isLt
  rw [BitVec.toNat_and, BitVec.toNat_shiftLeft, BitVec.toNat_setWidth, Nat.mod_eq_of_lt (a := op.toNat) (by omega),
    Nat.mod_eq_of_lt (by rw [Nat.shiftLeft_eq]; omega)] at h'
  exact h'

theorem rxData (d : Data) : Statement (.rxData d) := by
  unfold Statement
  revert d
  decide

theorem rxNoteOff (ch : Chan) : Statement (.rxNoteOff ch) := by
  unfold Statement
  revert ch
  decide

theorem rxNoteOn (ch : Chan) : Statement (.rxNoteOn ch) := by
  unfold Statement
  revert ch
  decide

theorem rxPolyAftertouch (ch : Chan) : Statement (.rxPolyAftertouch ch) := by
  unfold Statement
  revert ch
  decide

theorem rxControlChange (ch : Chan) : Statement (.rxControlChange ch) := by
  unfold Statement
  revert ch
  decide

theorem rxProgramChange (ch : Chan) : Statement (.rxProgramChange ch) := by
  unfold Statement
  revert ch
  decide

theorem rxChannelAftertouch (ch : Chan) : Statement (.rxChannelAftertouch ch) := by
  unfold Statement
  revert ch
  decide

theorem rxPitchWheel (ch : Chan) : Statement (.rxPitchWheel ch) := by
  unfold Statement
  revert ch
  decide

theorem rxSysexStart : Statement .rxSysexStart := by
  unfold Statement
  decide

theorem rxScF1 : Statement .rxScF1 := by
  unfold Statement
  decide

theorem rxScF2 : Statement .rxScF2 := by
  unfold Statement
  decide

theorem rxScF3 : Statement .rxScF3 := by
  unfold Statement
  decide

theorem rxScF4 : Statement .rxScF4 := by
  unfold Statement
  decide

theorem rxScF5 : Statement .rxScF5 := by
  unfold Statement
  decide

theorem rxTuneRequest : Statement .rxTuneRequest := by
  unfold Statement
  decide

theorem rxSysexEnd : Statement .rxSysexEnd := by
  unfold Statement
  decide

theorem rxRtTimingClock : Statement .rxRtTimingClock := by
  unfold Statement
  decide

theorem rxRtF9 : Statement .rxRtF9 := by
  unfold Statement
  decide

theorem rxRtStart : Statement .rxRtStart := by
  unfold Statement
  decide

theorem rxRtContinue : Statement .rxRtContinue := by
  unfold Statement
  decide

theorem rxRtStop : Statement .rxRtStop := by
  unfold Statement
  decide

theorem rxRtFd : Statement .rxRtFd := by
  unfold Statement
  decide

theorem rxRtActiveSensing : Statement .rxRtActiveSensing := by
  unfold Statement
  decide

theorem rxRtReset : Statement .rxRtReset := by
  unfold Statement
  decide

theorem noteOff (ch : Chan) (key vel : Byte) : Statement (.noteOff ch key vel) := ⟨rfl, commandWord_masked _ _ _⟩

theorem noteOn (ch : Chan) (key vel : Byte) : Statement (.noteOn ch key vel) := ⟨rfl, commandWord_masked _ _ _⟩

theorem controlChange (ch : Chan) (ctl val : Byte) : Statement (.controlChange ch ctl val) := ⟨rfl, commandWord_masked _ _ _⟩

theorem channelAftertouch (ch : Chan) (ignored pressure : Byte) : Statement (.channelAftertouch ch ignored pressure) := ⟨rfl, commandWord_masked _ _ _⟩

theorem pitchWheel (ch : Chan) (v : Word16) : Statement (.pitchWheel ch v) := ⟨rfl, commandWord_masked _ _ _⟩

theorem pitchWheelSigned (ch : Chan) (sv : Int) : Statement (.pitchWheelSigned ch sv) := ⟨rfl, commandWord_masked _ _ _⟩

theorem rtTimingClock (ch : Chan) (p : Word16) : Statement (.rtTimingClock ch p) := ⟨rfl, commandWord_masked _ _ _⟩

theorem modWheel (ch : Chan) (v : Word16) : Statement (.modWheel ch v) := ⟨rfl, commandWord_masked _ _ _⟩

theorem rtStart (ch : Chan) (p : Word16) : Statement (.rtStart ch p) := ⟨rfl, commandWord_masked _ _ _⟩

theorem rtContinue (ch : Chan) (p : Word16) : Statement (.rtContinue ch p) := ⟨rfl, commandWord_masked _ _ _⟩

theorem rtStop (ch : Chan) (p : Word16) : Statement (.rtStop ch p) := ⟨rfl, commandWord_masked _ _ _⟩

theorem rtActiveSensing (ch : Chan) (p : Word16) : Statement (.rtActiveSensing ch p) := ⟨rfl, commandWord_masked _ _ _⟩

theorem rtReset (ch : Chan) (p : Word16) : Statement (.rtReset ch p) := ⟨rfl, commandWord_masked _ _ _⟩

end Sys2Proof.Laws.TableRow
end

