-- ==== Sys2Proof/Laws/Step.lean ====
section
/-! SUPPORT. What one instruction and one step can do, said once. -/

namespace Sys2Proof.Machine

/-- A masked operand is a data byte (40_encoder.md rule R102). -/
theorem mask7_lt : ∀ x : Byte, mask7 x < 0x80#8 := by decide

theorem dataByteOf_lt : ∀ d : Data, dataByteOf d < 0x80#8 := by decide

theorem lsbOf_eq (v : Word16) : lsbOf v = dataByteOf (v.extractLsb' 0 7) := by
  apply BitVec.eq_of_getLsbD_eq
  intro i hi
  simp only [lsbOf, dataByteOf, BitVec.getLsbD_setWidth, BitVec.getLsbD_and, BitVec.getLsbD_extractLsb']
  interval_cases i <;> simp

theorem msbOf_eq (v : Word16) : msbOf v = dataByteOf (v.extractLsb' 7 7) := by
  apply BitVec.eq_of_getLsbD_eq
  intro i hi
  simp only [msbOf, dataByteOf, BitVec.getLsbD_setWidth, BitVec.getLsbD_and, BitVec.getLsbD_extractLsb',
    BitVec.getLsbD_ushiftRight]
  interval_cases i <;> simp

theorem mask7_eq : ∀ x : Byte, mask7 x = dataByteOf (x.setWidth 7) := by decide

/-- The status bytes of the channel families are non-realtime status bytes. -/
theorem statusByteOf_bounds : ∀ ch : Chan,
    (0x80#8 ≤ statusByteOf 0x80#8 ch ∧ statusByteOf 0x80#8 ch ≤ 0xF7#8) ∧
    (0x80#8 ≤ statusByteOf 0x90#8 ch ∧ statusByteOf 0x90#8 ch ≤ 0xF7#8) ∧
    (0x80#8 ≤ statusByteOf 0xA0#8 ch ∧ statusByteOf 0xA0#8 ch ≤ 0xF7#8) ∧
    (0x80#8 ≤ statusByteOf 0xB0#8 ch ∧ statusByteOf 0xB0#8 ch ≤ 0xF7#8) ∧
    (0x80#8 ≤ statusByteOf 0xC0#8 ch ∧ statusByteOf 0xC0#8 ch ≤ 0xF7#8) ∧
    (0x80#8 ≤ statusByteOf 0xD0#8 ch ∧ statusByteOf 0xD0#8 ch ≤ 0xF7#8) ∧
    (0x80#8 ≤ statusByteOf 0xE0#8 ch ∧ statusByteOf 0xE0#8 ch ≤ 0xF7#8) := by decide

/-- Everything an instruction can do: frame a data byte, take a non-realtime status byte, signal a realtime byte, send one
channel command, or send one realtime byte. -/
theorem exec_cases (i : Instr) (s : State) :
    (∃ d, i = .rxData d ∧ exec i s = .next (s.dataByte d)) ∨
    (∃ b, 0x80#8 ≤ b ∧ b ≤ 0xF7#8 ∧ encode i = .rx b ∧ exec i s = .next (s.statusByte b)) ∨
    (∃ b, 0xF8#8 ≤ b ∧ encode i = .rx b ∧ exec i s = .next (s.rtByte b)) ∨
    (∃ st data, i.txStatus = some st ∧ data.length = i.txDataLength ∧ (∀ x ∈ data, x < 0x80#8) ∧
      i.isRx = false ∧ exec i s = .next (s.afterSend st data)) ∨
    (∃ b, i.txRealtime = some b ∧ 0xF8#8 ≤ b ∧ i.isRx = false ∧ exec i s = .next (s.sendRealtime b)) := by
  have sb := statusByteOf_bounds
  cases i with
  | rxData d => exact .inl ⟨d, rfl, rfl⟩
  | rxNoteOff ch => exact .inr (.inl ⟨_, (sb ch).1.1, (sb ch).1.2, rfl, rfl⟩)
  | rxNoteOn ch => exact .inr (.inl ⟨_, (sb ch).2.1.1, (sb ch).2.1.2, rfl, rfl⟩)
  | rxPolyAftertouch ch => exact .inr (.inl ⟨_, (sb ch).2.2.1.1, (sb ch).2.2.1.2, rfl, rfl⟩)
  | rxControlChange ch => exact .inr (.inl ⟨_, (sb ch).2.2.2.1.1, (sb ch).2.2.2.1.2, rfl, rfl⟩)
  | rxProgramChange ch => exact .inr (.inl ⟨_, (sb ch).2.2.2.2.1.1, (sb ch).2.2.2.2.1.2, rfl, rfl⟩)
  | rxChannelAftertouch ch => exact .inr (.inl ⟨_, (sb ch).2.2.2.2.2.1.1, (sb ch).2.2.2.2.2.1.2, rfl, rfl⟩)
  | rxPitchWheel ch => exact .inr (.inl ⟨_, (sb ch).2.2.2.2.2.2.1, (sb ch).2.2.2.2.2.2.2, rfl, rfl⟩)
  | rxSysexStart => exact .inr (.inl ⟨_, by decide, by decide, rfl, rfl⟩)
  | rxScF1 => exact .inr (.inl ⟨_, by decide, by decide, rfl, rfl⟩)
  | rxScF2 => exact .inr (.inl ⟨_, by decide, by decide, rfl, rfl⟩)
  | rxScF3 => exact .inr (.inl ⟨_, by decide, by decide, rfl, rfl⟩)
  | rxScF4 => exact .inr (.inl ⟨_, by decide, by decide, rfl, rfl⟩)
  | rxScF5 => exact .inr (.inl ⟨_, by decide, by decide, rfl, rfl⟩)
  | rxTuneRequest => exact .inr (.inl ⟨_, by decide, by decide, rfl, rfl⟩)
  | rxSysexEnd => exact .inr (.inl ⟨_, by decide, by decide, rfl, rfl⟩)
  | rxRtTimingClock => exact .inr (.inr (.inl ⟨_, by decide, rfl, rfl⟩))
  | rxRtF9 => exact .inr (.inr (.inl ⟨_, by decide, rfl, rfl⟩))
  | rxRtStart => exact .inr (.inr (.inl ⟨_, by decide, rfl, rfl⟩))
  | rxRtContinue => exact .inr (.inr (.inl ⟨_, by decide, rfl, rfl⟩))
  | rxRtStop => exact .inr (.inr (.inl ⟨_, by decide, rfl, rfl⟩))
  | rxRtFd => exact .inr (.inr (.inl ⟨_, by decide, rfl, rfl⟩))
  | rxRtActiveSensing => exact .inr (.inr (.inl ⟨_, by decide, rfl, rfl⟩))
  | rxRtReset => exact .inr (.inr (.inl ⟨_, by decide, rfl, rfl⟩))
  | noteOff ch key vel =>
    exact .inr (.inr (.inr (.inl ⟨_, [mask7 key, mask7 vel], rfl, rfl, by simp [mask7_lt], rfl,
      congrArg _ (State.sendMessage_eq s 0x80#8 ch _)⟩)))
  | noteOn ch key vel =>
    exact .inr (.inr (.inr (.inl ⟨_, [mask7 key, mask7 vel], rfl, rfl, by simp [mask7_lt], rfl,
      congrArg _ (State.sendMessage_eq s 0x90#8 ch _)⟩)))
  | controlChange ch ctl val =>
    exact .inr (.inr (.inr (.inl ⟨_, [mask7 ctl, mask7 val], rfl, rfl, by simp [mask7_lt], rfl,
      congrArg _ (State.sendMessage_eq s 0xB0#8 ch _)⟩)))
  | channelAftertouch ch ignored pressure =>
    exact .inr (.inr (.inr (.inl ⟨_, [mask7 pressure], rfl, rfl, by simp [mask7_lt], rfl,
      congrArg _ (State.sendMessage_eq s 0xD0#8 ch _)⟩)))
  | pitchWheel ch v =>
    exact .inr (.inr (.inr (.inl ⟨_, [lsbOf v, msbOf v], rfl, rfl, by simp [lsbOf_eq, msbOf_eq, dataByteOf_lt], rfl,
      congrArg _ (State.sendMessage_eq s 0xE0#8 ch _)⟩)))
  | pitchWheelSigned ch sv =>
    exact .inr (.inr (.inr (.inl ⟨_, [lsbOf (recentre sv), msbOf (recentre sv)], rfl, rfl,
      by simp [lsbOf_eq, msbOf_eq, dataByteOf_lt], rfl, congrArg _ (State.sendMessage_eq s 0xE0#8 ch _)⟩)))
  | modWheel ch v =>
    exact .inr (.inr (.inr (.inl ⟨_, _, rfl, rfl, by simp [lsbOf_eq, msbOf_eq, dataByteOf_lt], rfl,
      congrArg _ (State.sendModWheel_eq s ch v)⟩)))
  | rtTimingClock ch p => exact .inr (.inr (.inr (.inr ⟨_, rfl, by decide, rfl, rfl⟩)))
  | rtStart ch p => exact .inr (.inr (.inr (.inr ⟨_, rfl, by decide, rfl, rfl⟩)))
  | rtContinue ch p => exact .inr (.inr (.inr (.inr ⟨_, rfl, by decide, rfl, rfl⟩)))
  | rtStop ch p => exact .inr (.inr (.inr (.inr ⟨_, rfl, by decide, rfl, rfl⟩)))
  | rtActiveSensing ch p => exact .inr (.inr (.inr (.inr ⟨_, rfl, by decide, rfl, rfl⟩)))
  | rtReset ch p => exact .inr (.inr (.inr (.inr ⟨_, rfl, by decide, rfl, rfl⟩)))

/-- What a decoder step on a byte does, by the byte's value (41_decoder.md rule R130). -/
theorem decStep_byte_cases (b : Byte) (s : State) :
    (b < 0x80#8 ∧ decStep (some b) s = .next (s.dataByte (dataOf b))) ∨
    (0x80#8 ≤ b ∧ b ≤ 0xF7#8 ∧ decStep (some b) s = .next (s.statusByte b)) ∨
    (0xF8#8 ≤ b ∧ decStep (some b) s = .next (s.rtByte b)) := by
  have he : ∀ c : Byte, encode (decodeByte c) = .rx c := by decide
  have hd : ∀ d : Data, encode (.rxData d) = .rx b → b < 0x80#8 ∧ dataOf b = d := by
    intro d h
    have k : ∀ e : Data, dataByteOf e < 0x80#8 ∧ dataOf (dataByteOf e) = e := by decide
    rw [← Encoded.rx.inj h]
    exact k d
  rcases exec_cases (decodeByte b) s with ⟨d, hi, h⟩ | ⟨c, h1, h2, hc, h⟩ | ⟨c, h1, hc, h⟩ | ⟨_, _, _, _, _, h, _⟩ |
    ⟨_, _, _, h, _⟩
  · obtain ⟨h1, h2⟩ := hd d (hi ▸ he b)
    exact .inl ⟨h1, by rw [h2]; exact h⟩
  · obtain rfl : c = b := Encoded.rx.inj (hc.symm.trans (he b))
    exact .inr (.inl ⟨h1, h2, h⟩)
  · obtain rfl : c = b := Encoded.rx.inj (hc.symm.trans (he b))
    exact .inr (.inr ⟨h1, h⟩)
  · simp [decodeByte_isRx b] at h
  · simp [decodeByte_isRx b] at h

/-- A decoder step always answers a next state. -/
theorem decStep_isNext (r : Option Byte) (s : State) : ∃ t, decStep r s = .next t := by
  cases r with
  | none => exact ⟨_, rfl⟩
  | some b =>
    rcases decStep_byte_cases b s with ⟨_, h⟩ | ⟨_, _, h⟩ | ⟨_, h⟩ <;> exact ⟨_, h⟩

/-- An encoder step is idle, refuses a reserved op, or runs its command. -/
theorem encStep_cases (c : Option Word24) (s : State) :
    (c = none ∧ encStep c s = .next { s with txOut := [] }) ∨
    (∃ w op, c = some w ∧ decodeCommand w = .error (.reservedCommandOp op) ∧
      encStep c s = .refused (.reservedCommandOp op)) ∨
    (∃ w i, c = some w ∧ decodeCommand w = .ok i ∧ encStep c s = exec i s) := by
  cases c with
  | none => exact .inl ⟨rfl, by rw [← State.idleCommand_eq]; rfl⟩
  | some w =>
    cases h : decodeCommand w with
    | ok i => exact .inr (.inr ⟨w, i, rfl, h, by simp [encStep, h]⟩)
    | error e =>
      cases e with
      | reservedCommandOp op => exact .inr (.inl ⟨w, op, rfl, h, by simp [encStep, h, refusalOf]⟩)

/-! One step, by the turn at the head. -/

theorem step_empty (s : State) (h : s.turns = []) : step s = .next { s with ev := .none } := by
  rw [← State.emptyPoll_eq]
  simp [step, State.present_empty s h, decStep]

theorem step_decoder_cons (s : State) (ts : List Turn) (r : Option Byte) (q : List (Option Byte))
    (h : s.turns = .decoder :: ts) (h' : s.rxIn = r :: q) :
    step s = decStep r { s with turns := ts, rxIn := q } := by
  simp [step, State.present, h, State.takePoll, h']

theorem step_decoder_nil (s : State) (ts : List Turn) (h : s.turns = .decoder :: ts) (h' : s.rxIn = []) :
    step s = .next { s with turns := ts, ev := .none } := by
  simp [step, State.present, h, State.takePoll, h', decStep_none]

theorem step_encoder_cons (s : State) (ts : List Turn) (c : Option Word24) (q : List (Option Word24))
    (h : s.turns = .encoder :: ts) (h' : s.cmdIn = c :: q) :
    step s = encStep c { s with turns := ts, cmdIn := q } := by
  simp [step, State.present, h, State.takeCommand, h']

theorem step_encoder_nil (s : State) (ts : List Turn) (h : s.turns = .encoder :: ts) (h' : s.cmdIn = []) :
    step s = .next { s with turns := ts, txOut := [] } := by
  simp [step, State.present, h, State.takeCommand, h', encStep, State.idleCommand_eq]

theorem step_reset (s : State) (ts : List Turn) (h : s.turns = .reset :: ts) :
    step s = .next { s with turns := ts }.resetBlock := by
  simp [step, State.present_reset s ts h]

theorem step_nested (s : State) (ts : List Turn) (h : s.turns = .nestedDecoder :: ts) :
    step s = .refused .reentrantDecode := by
  simp [step, State.present_nested s ts h]

end Sys2Proof.Machine
end

