-- ==== Sys2Proof/Laws/Run.lean ====
section
/-! SUPPORT. What a decoder step does for each class of byte, what feeding a message of two data bytes does, and the
abstract machine by the byte's class. -/

namespace Sys2Proof.Machine

/-! One decoder step, by the byte's value (41_decoder.md rule R130). -/

theorem decStep_data (b : Byte) (s : State) (h : b < 0x80#8) : decStep (some b) s = .next (s.dataByte (dataOf b)) := by
  rcases decStep_byte_cases b s with ⟨_, k⟩ | ⟨h', _⟩ | ⟨h', _⟩
  · exact k
  · exfalso; bv_omega
  · exfalso; bv_omega

theorem decStep_status (b : Byte) (s : State) (h : 0x80#8 ≤ b) (h' : b ≤ 0xF7#8) :
    decStep (some b) s = .next { s with rxs := famOf b, pend := false, ev := .none } := by
  rcases decStep_byte_cases b s with ⟨k, _⟩ | ⟨_, _, k⟩ | ⟨k, _⟩
  · exfalso; bv_omega
  · rw [k, State.statusByte_eq]
  · exfalso; bv_omega

theorem decStep_realtime (b : Byte) (s : State) (h : 0xF8#8 ≤ b) :
    decStep (some b) s = .next { s with ev := .realtime b, evLog := s.evLog ++ [.realtime b] } := by
  rcases decStep_byte_cases b s with ⟨k, _⟩ | ⟨_, k, _⟩ | ⟨_, k⟩
  · exfalso; bv_omega
  · exfalso; bv_omega
  · rw [k, State.rtByte_eq]

/-! Feeding a stream. -/

theorem feed_cons (r : Option Byte) (x : List (Option Byte)) (s t : State) (h : decStep r s = .next t) :
    feed (r :: x) s = feed x t := runAll_cons decStep r x s t h

theorem feed_append (x y : List (Option Byte)) (s t : State) (h : feed x s = .next t) : feed (x ++ y) s = feed y t :=
  runAll_append decStep x y s t h

theorem feedBytes_append (x y : List Byte) (s t : State) (h : feedBytes x s = .next t) :
    feedBytes (x ++ y) s = feedBytes y t := by
  unfold feedBytes
  rw [List.map_append, feed_append _ _ s t h]

theorem feed_isNext (x : List (Option Byte)) (s : State) : ∃ t, feed x s = .next t := by
  induction x generalizing s with
  | nil => exact ⟨s, rfl⟩
  | cons r x ih =>
    obtain ⟨t, h⟩ := decStep_isNext r s
    rw [feed_cons r x s t h]
    exact ih t

@[simp] theorem dataByteOf_setWidth : ∀ d : Data, (dataByteOf d).setWidth 7 = d := by decide

/-- Two data bytes under a two-byte family with nothing pending: one message, with the family's event. -/
theorem feedBytes_two (s : State) (n v : Data) (h : s.pend = false) (h' : s.rxs ∈ twoByteFamilies) :
    feedBytes [dataByteOf n, dataByteOf v] s = .next
      { s with
        d1 := n
        pend := false
        ev := secondEvent s.rxs n v
        evLog := s.evLog ++ (secondEvent s.rxs n v).logged } := by
  have hn : s.rxs ≠ NONE := by
    intro e
    rw [e] at h'
    revert h'
    decide
  have k : decStep (some (dataByteOf n)) s = .next { s with d1 := n, pend := true, ev := .none } := by
    rw [decStep_dataByteOf, State.dataByte_first s n h hn, State.firstData_twoBytes s n (by simp [framingOf, h'])]
  have k' : decStep (some (dataByteOf v)) { s with d1 := n, pend := true, ev := .none } = .next
      { s with
        d1 := n
        pend := false
        ev := secondEvent s.rxs n v
        evLog := s.evLog ++ (secondEvent s.rxs n v).logged } := by
    rw [decStep_dataByteOf, State.dataByte_second _ _ rfl, State.secondData_eq]
    simp [State.setPend, secondStatus, h']
  exact (feed_cons _ [some (dataByteOf v)] s _ k).trans ((feed_cons _ [] _ _ k').trans rfl)

/-! The abstract machine, by the byte's value (41_decoder.md rule R160). -/

theorem AbsState.after_realtime (a : AbsState) (b : Byte) (h : 0xF8#8 ≤ b) : a.after b = a := by
  simp [AbsState.after, h]

theorem AbsState.after_status (a : AbsState) (b : Byte) (h : 0x80#8 ≤ b) (h' : b ≤ 0xF7#8) :
    a.after b = .awaitingFirst (famOf b) := by
  have k : ∀ c : Byte, 0x80#8 ≤ c → c ≤ 0xF7#8 → ¬ 0xF8#8 ≤ c ∧ famOf c = if 0xF0#8 ≤ c then c else c &&& 0xF0#8 := by
    decide
  obtain ⟨n, e⟩ := k b h h'
  by_cases m : 0xF0#8 ≤ b <;> simp [AbsState.after, n, m, h, e]

theorem AbsState.signals_realtime (a : AbsState) (b : Byte) (h : 0xF8#8 ≤ b) : a.signals b = .realtime b := by
  simp [AbsState.signals, h]

theorem AbsState.signals_status (a : AbsState) (b : Byte) (h : 0x80#8 ≤ b) (h' : b ≤ 0xF7#8) : a.signals b = .none := by
  have n : ¬ 0xF8#8 ≤ b := by bv_omega
  simp [AbsState.signals, n, h]

end Sys2Proof.Machine
end

