-- ==== Sys2Proof/Tests/Slice0.lean ====
section
/-! SUPPORT. Tests on words and vectors written out from the spec, and for each statement with hypotheses a witness that
meets them. EV, DV, DG, RV and P1 name the vectors of 95_test_vectors.md. -/

namespace Sys2Proof.Tests

open Sys2Proof Sys2Proof.Machine

/-! Small helpers: the next state of a step, and states that differ from reset in the registers a test is about. -/

/-- The next state, if the outcome is one. -/
def nextOf : Result → Option State
  | .next s => some s
  | .fault _ => none
  | .refused _ => none

/-- The refusal, if the outcome is one. -/
def refusalIn : Result → Option Refusal
  | .refused r => some r
  | .next _ => none
  | .fault _ => none

/-- The decoder's registers as the spec's traces write them, and the event of the step. -/
def decoderView (r : Result) : Option (Byte × Bool × Data × Event) :=
  (nextOf r).map (fun t => (t.rxs, t.pend, t.d1, t.ev))

/-- The bytes of an encoder step, and `TXS` after it. -/
def encoderView (r : Result) : Option (List Byte × Byte) := (nextOf r).map (fun t => (t.txOut, t.txs))

/-- The state `(RXS, PEND, D1)` of the spec's traces. -/
def decoderAt (rxs : Byte) (pend : Bool) (d1 : Data) : State := { State.reset with rxs := rxs, pend := pend, d1 := d1 }

/-- An encoder that has sent the status byte `txs`. -/
def encoderAt (txs : Byte) : State := { State.reset with txs := txs }

/-! Well-formedness: the one check, just outside both ends of its range (rule R72, form CS). -/

theorem test_wellFormed_refuses_signed_too_large : (Instr.pitchWheelSigned 0x0#4 32768).wellFormed = false := by decide
theorem test_wellFormed_refuses_signed_too_small : (Instr.pitchWheelSigned 0x0#4 (-32769)).wellFormed = false := by
  decide
theorem test_wellFormed_takes_signed_ends :
    (Instr.pitchWheelSigned 0x0#4 32767).wellFormed = true ∧ (Instr.pitchWheelSigned 0x0#4 (-32768)).wellFormed = true := by
  decide

/-! Decoding: every constructor, by a byte or a word written out from rule R81, or rule R72 with rule R73. -/

theorem test_decode_data_bytes :
    decode (.rx 0b00111100#8) = .ok (.rxData 0b0111100#7) ∧ decode (.rx 0b01111111#8) = .ok (.rxData 127#7) := by decide
theorem test_decode_note_bytes :
    decode (.rx 0b10000001#8) = .ok (.rxNoteOff 1#4) ∧ decode (.rx 0b10011111#8) = .ok (.rxNoteOn 15#4) := by decide
theorem test_decode_other_channel_bytes :
    decode (.rx 0b10100010#8) = .ok (.rxPolyAftertouch 2#4) ∧ decode (.rx 0b10110011#8) = .ok (.rxControlChange 3#4) ∧
    decode (.rx 0b11000100#8) = .ok (.rxProgramChange 4#4) ∧ decode (.rx 0b11010101#8) = .ok (.rxChannelAftertouch 5#4) ∧
    decode (.rx 0b11100110#8) = .ok (.rxPitchWheel 6#4) := by decide
theorem test_decode_system_common_bytes :
    decode (.rx 0b11110000#8) = .ok .rxSysexStart ∧ decode (.rx 0b11110001#8) = .ok .rxScF1 ∧
    decode (.rx 0b11110010#8) = .ok .rxScF2 ∧ decode (.rx 0b11110011#8) = .ok .rxScF3 ∧
    decode (.rx 0b11110100#8) = .ok .rxScF4 ∧ decode (.rx 0b11110101#8) = .ok .rxScF5 ∧
    decode (.rx 0b11110110#8) = .ok .rxTuneRequest ∧ decode (.rx 0b11110111#8) = .ok .rxSysexEnd := by decide
theorem test_decode_realtime_bytes :
    decode (.rx 0b11111000#8) = .ok .rxRtTimingClock ∧ decode (.rx 0b11111001#8) = .ok .rxRtF9 ∧
    decode (.rx 0b11111010#8) = .ok .rxRtStart ∧ decode (.rx 0b11111011#8) = .ok .rxRtContinue ∧
    decode (.rx 0b11111100#8) = .ok .rxRtStop ∧ decode (.rx 0b11111101#8) = .ok .rxRtFd ∧
    decode (.rx 0b11111110#8) = .ok .rxRtActiveSensing ∧ decode (.rx 0b11111111#8) = .ok .rxRtReset := by decide
/-- EV7, EV8, EV9: op, channel, then the two bytes of form C2. -/
theorem test_decode_two_byte_commands :
    decode (.cmd 0b0000_0001_00111100_01000000#24) = .ok (.noteOff 1#4 60#8 64#8) ∧
    decode (.cmd 0b0001_1111_01111111_01111110#24) = .ok (.noteOn 15#4 127#8 126#8) ∧
    decode (.cmd 0b0011_0000_00000111_01111111#24) = .ok (.controlChange 0#4 7#8 127#8) := by decide
/-- EV12, EV16, EV24, EV30: forms C1, CU and CS. -/
theorem test_decode_wide_commands :
    decode (.cmd 0b0101_0010_00000001_11010000#24) = .ok (.channelAftertouch 2#4 0x01#8 0xD0#8) ∧
    decode (.cmd 0b0110_0000_0000001111101000#24) = .ok (.pitchWheel 0#4 1000#16) ∧
    decode (.cmd 0b0111_0000_1101111111111111#24) = .ok (.pitchWheelSigned 0#4 (-8193)) ∧
    decode (.cmd 0b1001_0011_1100000000000000#24) = .ok (.modWheel 3#4 0xC000#16) := by decide
/-- EV33, EV35: form R. -/
theorem test_decode_realtime_commands :
    decode (.cmd 0b1000_1111_0001001000110100#24) = .ok (.rtTimingClock 15#4 0x1234#16) ∧
    decode (.cmd 0b1010_0000_0000000000000000#24) = .ok (.rtStart 0#4 0#16) ∧
    decode (.cmd 0b1011_0000_0000000000000000#24) = .ok (.rtContinue 0#4 0#16) ∧
    decode (.cmd 0b1100_0000_0000000000000000#24) = .ok (.rtStop 0#4 0#16) ∧
    decode (.cmd 0b1110_0000_0000000000000000#24) = .ok (.rtActiveSensing 0#4 0#16) ∧
    decode (.cmd 0b1111_0000_0000000000000000#24) = .ok (.rtReset 0#4 0#16) := by decide
/-- EV36: the reserved ops. -/
theorem test_decode_rejects_reserved_ops :
    decode (.cmd 0x200000#24) = .error (.reservedCommandOp 0x2#4) ∧
    decode (.cmd 0x400000#24) = .error (.reservedCommandOp 0x4#4) ∧
    decode (.cmd 0xD00000#24) = .error (.reservedCommandOp 0xD#4) := by decide
theorem test_encode_note_on : encode (.noteOn 0#4 60#8 100#8) = .cmd 0x103C64#24 := by decide
theorem test_decodeTableWord :
    decodeTableWord 8 0x9F = some (.rxNoteOn 15#4) ∧ decodeTableWord 24 0x103C64 = some (.noteOn 0#4 60#8 100#8) ∧
    decodeTableWord 24 0x200000 = none := by decide

/-! The notation (rule R78, rule R79). -/

theorem test_assemble_note_on : assemble "NOTE_ON 0, 60, 100".toList = some 0x103C64#24 := by decide
theorem test_assemble_hex : assemble "CHANNEL_AFTERTOUCH 2, 0x1D0".toList = some 0x5201D0#24 := by decide
theorem test_assemble_negative : assemble "PITCH_WHEEL_SIGNED 0, -8193".toList = some 0x70DFFF#24 := by decide
theorem test_assemble_unsigned : assemble "MOD_WHEEL 3, 0xC000".toList = some 0x93C000#24 := by decide
theorem test_assemble_realtime : assemble "RT_RESET".toList = some 0xF00000#24 := by decide
theorem test_assemble_negative_elsewhere : assemble "PITCH_WHEEL 0, -1".toList = none := by decide
/-- Log entry 15: the model's choice, no word of the spec. -/
theorem test_assemble_minus_zero : assemble "NOTE_ON -0, 60, 100".toList = some 0x103C64#24 := by decide
theorem test_rxLine : rxLine "RX 90 -- 3C".toList = some [some 0x90#8, none, some 0x3C#8] := by decide

/-! Received channel statuses: arrival (DV10, DV22, DV39 and their like). -/

theorem test_rxNoteOff_abandons :
    decoderView (exec (.rxNoteOff 0#4) (decoderAt 0x90#8 true 0x3C#7)) = some (0x80#8, false, 0x3C#7, .none) := by decide
theorem test_rxNoteOn_channel_discarded :
    decoderView (exec (.rxNoteOn 15#4) State.reset) = some (0x90#8, false, 0x00#7, .none) := by decide
theorem test_rxPolyAftertouch :
    decoderView (exec (.rxPolyAftertouch 3#4) State.reset) = some (0xA0#8, false, 0x00#7, .none) := by decide
theorem test_rxControlChange :
    decoderView (exec (.rxControlChange 0#4) (decoderAt 0xC0#8 false 0x05#7)) = some (0xB0#8, false, 0x05#7, .none) := by
  decide
theorem test_rxProgramChange_abandons :
    decoderView (exec (.rxProgramChange 0#4) (decoderAt 0xB0#8 true 0x07#7)) = some (0xC0#8, false, 0x07#7, .none) := by
  decide
theorem test_rxChannelAftertouch :
    decoderView (exec (.rxChannelAftertouch 9#4) State.reset) = some (0xD0#8, false, 0x00#7, .none) := by decide
theorem test_rxPitchWheel :
    decoderView (exec (.rxPitchWheel 5#4) State.reset) = some (0xE0#8, false, 0x00#7, .none) := by decide

/-! Received data bytes, under each running status. -/

/-- DV3, second byte. -/
theorem test_rxData_first :
    decoderView (exec (.rxData 0x3C#7) (decoderAt 0x90#8 false 0x00#7)) = some (0x90#8, true, 0x3C#7, .none) := by decide
/-- DV3 and DV8, last byte. -/
theorem test_rxData_note_on :
    decoderView (exec (.rxData 0x64#7) (decoderAt 0x90#8 true 0x3C#7)) =
      some (0x90#8, false, 0x3C#7, .noteOn 60#7 100#7) ∧
    decoderView (exec (.rxData 0x01#7) (decoderAt 0x90#8 true 0x00#7)) =
      some (0x90#8, false, 0x00#7, .noteOn 0#7 1#7) := by decide
/-- DV4 and DV12: velocity 0. -/
theorem test_rxData_note_off :
    decoderView (exec (.rxData 0x00#7) (decoderAt 0x90#8 true 0x3C#7)) =
      some (0x90#8, false, 0x3C#7, .noteOff 60#7 0#7) ∧
    decoderView (exec (.rxData 0x7F#7) (decoderAt 0x80#8 true 0x41#7)) =
      some (0x80#8, false, 0x41#7, .noteOff 65#7 127#7) := by decide
/-- DV13, DV16: controller then value; low half then high half. -/
theorem test_rxData_control_and_pitch :
    decoderView (exec (.rxData 0x7F#7) (decoderAt 0xB0#8 true 0x07#7)) =
      some (0xB0#8, false, 0x07#7, .controlChange 7#7 127#7) ∧
    decoderView (exec (.rxData 0x40#7) (decoderAt 0xE0#8 true 0x00#7)) =
      some (0xE0#8, false, 0x00#7, .pitchWheel 0#7 64#7) := by decide
/-- DV19, DV20, DV21: families without an event. -/
theorem test_rxData_silent_families :
    decoderView (exec (.rxData 0x10#7) (decoderAt 0xA0#8 true 0x3C#7)) = some (0xA0#8, false, 0x3C#7, .none) ∧
    decoderView (exec (.rxData 0x06#7) (decoderAt 0xC0#8 false 0x05#7)) = some (0xC0#8, false, 0x06#7, .none) ∧
    decoderView (exec (.rxData 0x40#7) (decoderAt 0xD0#8 false 0x00#7)) = some (0xD0#8, false, 0x40#7, .none) := by decide
/-- DV23 to DV33: a data byte under a system-common status, and the quirk. -/
theorem test_rxData_system_common :
    decoderView (exec (.rxData 0x64#7) (decoderAt 0xF6#8 false 0x3C#7)) = some (0x00#8, false, 0x3C#7, .none) ∧
    decoderView (exec (.rxData 0x10#7) (decoderAt 0xF2#8 false 0x00#7)) = some (0x00#8, true, 0x10#7, .none) ∧
    decoderView (exec (.rxData 0x05#7) (decoderAt 0xF3#8 false 0x00#7)) = some (0x00#8, true, 0x05#7, .none) ∧
    decoderView (exec (.rxData 0x20#7) (decoderAt 0x00#8 true 0x10#7)) = some (0x00#8, false, 0x10#7, .none) := by decide
/-- DV2: stray. -/
theorem test_rxData_stray :
    decoderView (exec (.rxData 0x3C#7) State.reset) = some (0x00#8, false, 0x00#7, .none) := by decide

/-! Received system-common and realtime statuses. -/

theorem test_rxSystemCommon_first_half :
    decoderView (exec .rxSysexStart (decoderAt 0x90#8 true 0x3C#7)) = some (0xF0#8, false, 0x3C#7, .none) ∧
    decoderView (exec .rxScF1 State.reset) = some (0xF1#8, false, 0x00#7, .none) ∧
    decoderView (exec .rxScF2 (decoderAt 0x90#8 false 0x3C#7)) = some (0xF2#8, false, 0x3C#7, .none) ∧
    decoderView (exec .rxScF3 State.reset) = some (0xF3#8, false, 0x00#7, .none) := by decide
theorem test_rxSystemCommon_second_half :
    decoderView (exec .rxScF4 State.reset) = some (0xF4#8, false, 0x00#7, .none) ∧
    decoderView (exec .rxScF5 State.reset) = some (0xF5#8, false, 0x00#7, .none) ∧
    decoderView (exec .rxTuneRequest (decoderAt 0x90#8 true 0x3C#7)) = some (0xF6#8, false, 0x3C#7, .none) ∧
    decoderView (exec .rxSysexEnd State.reset) = some (0xF7#8, false, 0x00#7, .none) := by decide
/-- DV6, DV15, DV34, DV36: the state in progress survives. -/
theorem test_rxRealtime_first_half :
    decoderView (exec .rxRtTimingClock (decoderAt 0x90#8 true 0x3C#7)) =
      some (0x90#8, true, 0x3C#7, .realtime 0xF8#8) ∧
    decoderView (exec .rxRtF9 State.reset) = some (0x00#8, false, 0x00#7, .realtime 0xF9#8) ∧
    decoderView (exec .rxRtStart State.reset) = some (0x00#8, false, 0x00#7, .realtime 0xFA#8) ∧
    decoderView (exec .rxRtContinue State.reset) = some (0x00#8, false, 0x00#7, .realtime 0xFB#8) := by decide
theorem test_rxRealtime_second_half :
    decoderView (exec .rxRtStop State.reset) = some (0x00#8, false, 0x00#7, .realtime 0xFC#8) ∧
    decoderView (exec .rxRtFd State.reset) = some (0x00#8, false, 0x00#7, .realtime 0xFD#8) ∧
    decoderView (exec .rxRtActiveSensing (decoderAt 0xB0#8 true 0x07#7)) =
      some (0xB0#8, true, 0x07#7, .realtime 0xFE#8) ∧
    decoderView (exec .rxRtReset (decoderAt 0x90#8 true 0x3C#7)) = some (0x90#8, true, 0x3C#7, .realtime 0xFF#8) := by
  decide

/-! The encoder's commands. -/

/-- EV7, and EV4's second command. -/
theorem test_noteOff :
    encoderView (exec (.noteOff 1#4 60#8 64#8) State.reset) = some ([0x81#8, 0x3C#8, 0x40#8], 0x81#8) ∧
    encoderView (exec (.noteOff 0#4 60#8 0#8) (encoderAt 0x90#8)) = some ([0x80#8, 0x3C#8, 0x00#8], 0x80#8) := by decide
/-- EV5 and EV2's second command. -/
theorem test_noteOn :
    encoderView (exec (.noteOn 0#4 0xBC#8 0xE4#8) State.reset) = some ([0x90#8, 0x3C#8, 0x64#8], 0x90#8) ∧
    encoderView (exec (.noteOn 0#4 62#8 90#8) (encoderAt 0x90#8)) = some ([0x3E#8, 0x5A#8], 0x90#8) := by decide
/-- EV10. -/
theorem test_controlChange :
    encoderView (exec (.controlChange 0#4 0xFF#8 0x80#8) State.reset) = some ([0xB0#8, 0x7F#8, 0x00#8], 0xB0#8) := by
  decide
/-- EV12 and EV11's second command. -/
theorem test_channelAftertouch :
    encoderView (exec (.channelAftertouch 2#4 0x01#8 0xD0#8) State.reset) = some ([0xD2#8, 0x50#8], 0xD2#8) ∧
    encoderView (exec (.channelAftertouch 2#4 0x00#8 0x51#8) (encoderAt 0xD2#8)) = some ([0x51#8], 0xD2#8) := by decide
/-- EV16 and EV17. -/
theorem test_pitchWheel :
    encoderView (exec (.pitchWheel 0#4 1000#16) State.reset) = some ([0xE0#8, 0x68#8, 0x07#8], 0xE0#8) ∧
    encoderView (exec (.pitchWheel 0#4 16384#16) State.reset) = some ([0xE0#8, 0x00#8, 0x00#8], 0xE0#8) := by decide
/-- EV22, EV24, EV25. -/
theorem test_pitchWheelSigned :
    encoderView (exec (.pitchWheelSigned 0#4 (-1)) State.reset) = some ([0xE0#8, 0x7F#8, 0x3F#8], 0xE0#8) ∧
    encoderView (exec (.pitchWheelSigned 0#4 (-8193)) State.reset) = some ([0xE0#8, 0x7F#8, 0x7F#8], 0xE0#8) ∧
    encoderView (exec (.pitchWheelSigned 0#4 32767) State.reset) = some ([0xE0#8, 0x7F#8, 0x3F#8], 0xE0#8) := by decide
/-- EV27 and EV28's second command. -/
theorem test_modWheel :
    encoderView (exec (.modWheel 0#4 300#16) State.reset) =
      some ([0xB0#8, 0x21#8, 0x2C#8, 0x01#8, 0x02#8], 0xB0#8) ∧
    encoderView (exec (.modWheel 0#4 300#16) (encoderAt 0xB0#8)) =
      some ([0x21#8, 0x2C#8, 0x01#8, 0x02#8], 0xB0#8) := by decide
/-- EV31 to EV35: `TXS` stays. -/
theorem test_realtime_commands :
    encoderView (exec (.rtTimingClock 15#4 0x1234#16) State.reset) = some ([0xF8#8], 0x00#8) ∧
    encoderView (exec (.rtStart 0#4 0#16) (encoderAt 0x90#8)) = some ([0xFA#8], 0x90#8) ∧
    encoderView (exec (.rtContinue 0#4 0#16) (encoderAt 0x90#8)) = some ([0xFB#8], 0x90#8) ∧
    encoderView (exec (.rtStop 0#4 0#16) (encoderAt 0x90#8)) = some ([0xFC#8], 0x90#8) ∧
    encoderView (exec (.rtActiveSensing 0#4 0#16) (encoderAt 0x90#8)) = some ([0xFE#8], 0x90#8) ∧
    encoderView (exec (.rtReset 0#4 0#16) (encoderAt 0x90#8)) = some ([0xFF#8], 0x90#8) := by decide

/-! One step of the machine. -/

theorem test_step_runs_presented_byte :
    decoderView (step (State.reset.withFetchWord 8 0xF8)) = some (0x00#8, false, 0x00#7, .realtime 0xF8#8) := by decide
theorem test_step_runs_presented_word :
    encoderView (step (State.reset.withFetchWord 24 0x103C64)) = some ([0x90#8, 0x3C#8, 0x64#8], 0x90#8) := by decide
/-- EV36. -/
theorem test_step_refuses_reserved_op :
    refusalIn (step (State.reset.withFetchWord 24 0xD00000)) = some (.reservedCommandOp 0xD#4) := by decide
/-- Rule R184. -/
theorem test_step_refuses_nested_decoder :
    refusalIn (step { State.reset with turns := [.nestedDecoder] }) = some .reentrantDecode := by decide
/-- RV3: the byte presented with the reset is still there. -/
theorem test_step_reset_consumes_nothing :
    (nextOf (step { decoderAt 0x90#8 true 0x3C#7 with turns := [.reset], rxIn := [some 0x64#8] })).map
      (fun t => (t.rxs, t.pend, t.rxIn, t.evLog)) = some (0x00#8, false, [some 0x64#8], []) := by decide
/-- DG2 to DG5: the diagnostic tuple. -/
theorem test_diag :
    (decoderAt 0x90#8 false 0x00#7).diag = { txs := 0x00#8, rxs := 0x90#8, pend := 0x00#8, tag := 0x01#8 } ∧
    (decoderAt 0x90#8 true 0x3C#7).diag = { txs := 0x00#8, rxs := 0x90#8, pend := 0x01#8, tag := 0x02#8 } ∧
    (decoderAt 0x00#8 true 0x10#7).diag = { txs := 0x00#8, rxs := 0x00#8, pend := 0x01#8, tag := 0x02#8 } ∧
    { decoderAt 0xC0#8 false 0x3C#7 with txs := 0x90#8 }.diag =
      { txs := 0x90#8, rxs := 0xC0#8, pend := 0x00#8, tag := 0x01#8 } := by decide

/-! Witnesses: for each statement with hypotheses, states and operands that meet them, at the ends of their ranges. -/

/-- A state that meets the invariant with a message in progress, every port in use and both units past reset. -/
def busy : State :=
  { decoderAt 0x90#8 true 0x3C#7 with
    txs := 0xEF#8, ev := .realtime 0xFF#8, evLog := [.noteOn 1#7 2#7, .realtime 0xF8#8]
    txOut := [0xEF#8, 0x00#8, 0x40#8], txLog := [0xEF#8, 0x00#8, 0x40#8]
    rxIn := [some 0x64#8], cmdIn := [some 0x103C64#24], turns := [.decoder, .encoder] }

theorem witness_Inv : busy.Inv :=
  ⟨by decide, by decide, by decide, by decide, by decide, by decide⟩

/-- The invariant holds under every kind of running status: a two-byte family, a one-byte family, a system-common status
and the quirk state. -/
theorem witness_Inv_each_status :
    (decoderAt 0xE0#8 true 0x7F#7).Inv ∧ (decoderAt 0xC0#8 false 0x00#7).Inv ∧ (decoderAt 0xD0#8 false 0x00#7).Inv ∧
    (decoderAt 0xF0#8 false 0x00#7).Inv ∧ (decoderAt 0xF7#8 false 0x00#7).Inv ∧ (decoderAt NONE true 0x10#7).Inv := by
  refine ⟨?_, ?_, ?_, ?_, ?_, ?_⟩ <;> exact ⟨by decide, by decide, by decide, by decide, by decide, by decide⟩

theorem witness_DecodeOfEncode :
    (Instr.pitchWheelSigned 15#4 (-32768)).wellFormed = true ∧ (Instr.pitchWheelSigned 0#4 32767).wellFormed = true ∧
    (Instr.noteOn 15#4 255#8 255#8).wellFormed = true := by decide
theorem witness_EncodeOfDecode :
    decode (.rx 0xFF#8) = .ok .rxRtReset ∧ decode (.cmd 0x708000#24) = .ok (.pitchWheelSigned 0#4 (-32768)) := by decide
theorem witness_EventEncoding :
    decoderView (decStep (some 0xF8#8) State.reset) = some (0x00#8, false, 0x00#7, .realtime 0xF8#8) ∧
    (Event.realtime 0xF8#8).toWord.kind = 5#3 := by decide
theorem witness_ReservedOpsRefused :
    opOf 0x2FFFFF#24 = 0x2#4 ∧ opOf 0x4FFFFF#24 = 0x4#4 ∧ opOf 0xDFFFFF#24 = 0xD#4 ∧
    ¬(opOf 0x1FFFFF#24 = 0x2#4 ∨ opOf 0x1FFFFF#24 = 0x4#4 ∨ opOf 0x1FFFFF#24 = 0xD#4) := by decide
theorem witness_CompositeHalves :
    (decoderAt 0xE0#8 false 0x00#7).rxs = 0xE0#8 ∧ (decoderAt 0xE0#8 false 0x00#7).pend = false := by decide
theorem witness_AssembledWords :
    (asmWord 0x7#4 .cs [.ofNat 15, -32768]).map BitVec.toNat = some (7 * 2 ^ 20 + 15 * 2 ^ 16 + 32768) ∧
    (asmWord 0x3#4 .c2 [.ofNat 15, .ofNat 255, .ofNat 255]).map BitVec.toNat =
      some (3 * 2 ^ 20 + 15 * 2 ^ 16 + (255 * 2 ^ 8 + 255)) ∧
    (asmWord 0x6#4 .cu [.ofNat 0, .ofNat 65535]).map BitVec.toNat = some (6 * 2 ^ 20 + 0 * 2 ^ 16 + 65535) := by decide
theorem witness_StepRunsDecoded :
    busy.turns = .decoder :: [.encoder] ∧ busy.rxIn = some 0x64#8 :: [] ∧
    ({ busy with turns := [.encoder] } : State).turns = .encoder :: [] ∧ busy.cmdIn = some 0x103C64#24 :: [] ∧
    decode (.cmd 0x103C64#24) = .ok (.noteOn 0#4 60#8 100#8) := by decide
theorem witness_IdleSteps :
    ({ State.reset with turns := [.decoder], rxIn := [none] } : State).turns = .decoder :: [] ∧
    ({ State.reset with turns := [.decoder], rxIn := [none] } : State).rxIn = none :: [] ∧
    ({ State.reset with turns := [.encoder], cmdIn := [none] } : State).turns = .encoder :: [] ∧
    ({ State.reset with turns := [.encoder], cmdIn := [none] } : State).cmdIn = none :: [] := by decide
/-- Also for ResetSilentAndIdempotent, whose last clause needs a second reset behind the first. -/
theorem witness_ResetAction :
    ({ busy with turns := [.reset, .reset] } : State).turns = .reset :: [.reset] ∧
    ([.reset] : List Turn) = .reset :: [] := by decide
theorem witness_ResetValues : isChannelStatus 0x80#8 = true ∧ isChannelStatus 0xEF#8 = true := by decide
/-- Both sides of both refusals occur. -/
theorem witness_RefusesExactlyTwoCases :
    refusalIn (step { State.reset with turns := [.encoder], cmdIn := [some 0x2FFFFF#24] }) =
      some (.reservedCommandOp 0x2#4) ∧
    refusalIn (step { State.reset with turns := [.nestedDecoder] }) = some .reentrantDecode ∧
    refusalIn (step busy) = none := by decide
theorem witness_RealtimeBytes : (0xF8#8 : Byte) ≤ 0xF8#8 ∧ (0xF8#8 : Byte) ≤ 0xFF#8 := by decide
theorem witness_StatusByteArrival :
    ((0x80#8 : Byte) ≤ 0x80#8 ∧ (0x80#8 : Byte) ≤ 0xF7#8) ∧ ((0x80#8 : Byte) ≤ 0xEF#8 ∧ (0xEF#8 : Byte) ≤ 0xF7#8) ∧
    ((0x80#8 : Byte) ≤ 0xF0#8 ∧ (0xF0#8 : Byte) ≤ 0xF7#8) ∧ ((0x80#8 : Byte) ≤ 0xF7#8 ∧ (0xF7#8 : Byte) ≤ 0xF7#8) := by
  decide
theorem witness_NoteOffFamily :
    ((decoderAt 0x80#8 false 0x00#7).rxs = 0x80#8 ∧ (decoderAt 0x80#8 false 0x00#7).pend = false) ∧
    ((decoderAt 0x80#8 true 0x7F#7).rxs = 0x80#8 ∧ (decoderAt 0x80#8 true 0x7F#7).pend = true) := by decide
theorem witness_NoteOnFamily :
    ((decoderAt 0x90#8 false 0x00#7).rxs = 0x90#8 ∧ (decoderAt 0x90#8 false 0x00#7).pend = false) ∧
    ((decoderAt 0x90#8 true 0x7F#7).rxs = 0x90#8 ∧ (decoderAt 0x90#8 true 0x7F#7).pend = true ∧
      (0x01#7 : Data) ≠ 0x00#7 ∧ (0x7F#7 : Data) ≠ 0x00#7) := by decide
theorem witness_PolyAftertouchFamily :
    ((decoderAt 0xA0#8 false 0x00#7).rxs = 0xA0#8 ∧ (decoderAt 0xA0#8 false 0x00#7).pend = false) ∧
    ((decoderAt 0xA0#8 true 0x7F#7).rxs = 0xA0#8 ∧ (decoderAt 0xA0#8 true 0x7F#7).pend = true) := by decide
theorem witness_ControlChangeFamily :
    ((decoderAt 0xB0#8 false 0x00#7).rxs = 0xB0#8 ∧ (decoderAt 0xB0#8 false 0x00#7).pend = false) ∧
    ((decoderAt 0xB0#8 true 0x7F#7).rxs = 0xB0#8 ∧ (decoderAt 0xB0#8 true 0x7F#7).pend = true) := by decide
/-- The clause with `PEND` = 1 is about states no run reaches (rule R146); such a state exists as data. -/
theorem witness_OneByteFamilies :
    ((decoderAt 0xC0#8 false 0x00#7).rxs = 0xC0#8 ∧ (decoderAt 0xC0#8 false 0x00#7).pend = false) ∧
    ((decoderAt 0xD0#8 false 0x00#7).rxs = 0xD0#8 ∧ (decoderAt 0xD0#8 false 0x00#7).pend = false) ∧
    ((decoderAt 0xD0#8 true 0x00#7).rxs = 0xD0#8 ∧ (decoderAt 0xD0#8 true 0x00#7).pend = true) := by decide
theorem witness_PitchWheelFamily :
    ((decoderAt 0xE0#8 false 0x00#7).rxs = 0xE0#8 ∧ (decoderAt 0xE0#8 false 0x00#7).pend = false) ∧
    ((decoderAt 0xE0#8 true 0x7F#7).rxs = 0xE0#8 ∧ (decoderAt 0xE0#8 true 0x7F#7).pend = true) := by decide
theorem witness_SystemCommonTerminus :
    ((decoderAt 0xF0#8 false 0x00#7).rxs = 0xF0#8 ∧ (decoderAt 0xF0#8 false 0x00#7).pend = false) ∧
    ((decoderAt 0xF7#8 false 0x00#7).rxs = 0xF7#8 ∧ (decoderAt 0xF7#8 false 0x00#7).pend = false) := by decide
theorem witness_SystemCommonQuirk :
    ((decoderAt 0xF2#8 false 0x00#7).rxs = 0xF2#8 ∧ (decoderAt 0xF2#8 false 0x00#7).pend = false) ∧
    ((decoderAt 0xF3#8 false 0x00#7).rxs = 0xF3#8 ∧ (decoderAt 0xF3#8 false 0x00#7).pend = false) ∧
    ((decoderAt NONE true 0x10#7).rxs = NONE ∧ (decoderAt NONE true 0x10#7).pend = true) := by decide
theorem witness_StrayData : State.reset.rxs = NONE ∧ State.reset.pend = false := by decide
/-- As for OneByteFamilies, the first clause is about states no run reaches (rule R164). -/
theorem witness_SecondUnderSystemCommon :
    ((0xF0#8 : Byte) ≤ (decoderAt 0xF0#8 true 0x00#7).rxs ∧ (decoderAt 0xF0#8 true 0x00#7).rxs ≤ 0xF7#8 ∧
      (decoderAt 0xF0#8 true 0x00#7).pend = true) ∧
    ((0xF0#8 : Byte) ≤ (decoderAt 0xF7#8 false 0x00#7).rxs ∧ (decoderAt 0xF7#8 false 0x00#7).rxs ≤ 0xF7#8) := by decide
theorem witness_UnreachableStatusEnds :
    (decoderAt 0x01#8 false 0x00#7).rxs ∉ legalRxs ∧ (decoderAt 0x9F#8 true 0x00#7).rxs ∉ legalRxs ∧
    (decoderAt 0xFF#8 true 0x00#7).rxs ∉ legalRxs := by decide
theorem witness_DecoderFrame :
    (Instr.rxData 0x00#7).isRx = true ∧ (nextOf (exec (.rxData 0x00#7) busy)).isSome = true ∧
    Instr.rxRtReset.isRx = true ∧ (nextOf (exec .rxRtReset busy)).isSome = true := by decide
theorem witness_D1Writers :
    (decoderAt 0xF3#8 false 0x01#7).pend = false ∧
    (decoderAt 0xF3#8 false 0x01#7).rxs ∈
      [0x80#8, 0x90#8, 0xA0#8, 0xB0#8, 0xC0#8, 0xD0#8, 0xE0#8, 0xF2#8, 0xF3#8] ∧
    (nextOf (exec (.rxData 0x02#7) (decoderAt 0xF3#8 false 0x01#7))).map State.d1 = some 0x02#7 ∧
    (nextOf (exec (.rxData 0x02#7) (decoderAt 0xF4#8 false 0x01#7))).map State.d1 = some 0x01#7 := by decide
theorem witness_UnwrittenD1NeverRead :
    SameButD1 (decoderAt 0x90#8 false 0x00#7) (decoderAt 0x90#8 false 0x7F#7) ∧
    (nextOf (step (decoderAt 0x90#8 false 0x00#7))).isSome = true :=
  ⟨⟨rfl, by decide⟩, by decide⟩
theorem witness_ChannelOmni :
    isChannelStatus 0x90#8 = true ∧ isChannelStatus 0x9F#8 = true ∧ (0x90#8 : Byte) &&& 0xF0#8 = 0x9F#8 &&& 0xF0#8 := by
  decide
theorem witness_FollowsAbstractMachine : busy.Inv := witness_Inv
theorem witness_InterleaveSafety : (0xF8#8 : Byte) ≤ 0xF8#8 := by decide
theorem witness_ExactlyOnceDispatch :
    decoderView (decStep (some 0x64#8) (decoderAt 0x90#8 true 0x3C#7)) =
      some (0x90#8, false, 0x3C#7, .noteOn 60#7 100#7) ∧
    isChannelStatus 0xEF#8 = true ∧ (0xEF#8 : Byte) &&& 0xF0#8 ∈ [0x80#8, 0x90#8, 0xB0#8, 0xE0#8] := by decide
theorem witness_NoEventUnderSystemCommon :
    (0xF0#8 : Byte) ≤ 0xF7#8 ∧ ∀ c ∈ ([0x10#8, 0xF8#8, 0xF2#8, 0x7F#8] : List Byte), isChannelStatus c = false := by
  decide
theorem witness_DiscardAfterReset : ∀ c ∈ ([0x3C#8, 0x7F#8, 0xF8#8] : List Byte), c ≤ 0x7F#8 ∨ 0xF8#8 ≤ c := by decide
theorem witness_StatusByteResynchronises : (0x80#8 : Byte) ≤ 0xF7#8 ∧ (0xF7#8 : Byte) ≤ 0xF7#8 := by decide
theorem witness_EncoderFrame :
    (Instr.modWheel 0#4 300#16).isRx = false ∧ (nextOf (exec (.modWheel 0#4 300#16) busy)).isSome = true := by decide
theorem witness_OutputLengths :
    (nextOf (exec (.modWheel 0#4 300#16) busy)).isSome = true ∧
    (Instr.modWheel 0#4 300#16).txStatus = some 0xB0#8 ∧ (Instr.rtStop 0#4 0#16).txRealtime = some 0xFC#8 := by decide
theorem witness_ElisionLaws :
    (Instr.noteOn 0#4 60#8 100#8).txStatus = some 0x90#8 ∧ (Instr.noteOn 0#4 62#8 90#8).txStatus = some 0x90#8 ∧
    (Instr.noteOn 1#4 60#8 100#8).txStatus = some 0x91#8 ∧
    ∀ r ∈ [Instr.rtTimingClock 0#4 0#16], r.txRealtime.isSome = true := by decide
theorem witness_FullStatusAfterReset :
    (Instr.noteOn 0#4 62#8 90#8).txStatus = some 0x90#8 ∧
    ∀ j ∈ [Instr.rtReset 0#4 0#16, Instr.rxNoteOn 0#4], j.txStatus = none := by decide
theorem witness_UnitsCommute :
    (nextOf (encStep (some 0x103C64#24) busy)).isSome = true ∧ (nextOf (encStep none busy)).isSome = true ∧
    refusalIn (encStep (some 0x400000#24) busy) = some (.reservedCommandOp 0x4#4) := by decide
theorem witness_StepKeepsInv : busy.Inv ∧ (nextOf (step busy)).isSome = true := ⟨witness_Inv, by decide⟩
/-- A step that emits, and a step that signals: the last clauses of both statements are met. -/
theorem witness_BytesAnswerCommands_EventsAnswerBytes :
    (nextOf (step { busy with turns := [.encoder] })).map (fun t => t.txLog.length) = some 6 ∧
    (nextOf (step busy)).map (fun t => t.evLog.length) = some 3 := by decide
theorem witness_OnlyResetClearsTxs :
    (nextOf (step busy)).isSome = true ∧ busy.turns.head? ≠ some .reset ∧ busy.txs ≠ NONE := by decide
theorem witness_PresentedInputsRunInOrder :
    State.reset.turns = [] ∧ State.reset.rxIn = [] ∧ State.reset.cmdIn = [] := by decide
/-- P1's commands all have an event. -/
theorem witness_Loopback :
    ∀ i ∈ [Instr.noteOn 0#4 60#8 100#8, .rtTimingClock 0#4 0#16, .controlChange 0#4 7#8 100#8, .noteOn 0#4 60#8 0#8,
      .pitchWheelSigned 0#4 0, .noteOff 0#4 64#8 0#8], i.loopEvent.isSome = true := by decide
/-- The encoder with nothing sent, with another channel's status, and with its status elided to a decoder that holds the
family. -/
theorem witness_ModWheelArrivesAsTwoControlChanges :
    State.reset.txs ≠ 0xB0#8 ||| (0#4 : Chan).setWidth 8 ∧ (encoderAt 0xB1#8).txs ≠ 0xB0#8 ||| (0#4 : Chan).setWidth 8 ∧
    (encoderAt 0xBF#8).txs = 0xB0#8 ||| (15#4 : Chan).setWidth 8 ∧
    (decoderAt 0xB0#8 false 0x00#7).rxs = 0xB0#8 ∧ (decoderAt 0xB0#8 false 0x00#7).pend = false := by decide

end Sys2Proof.Tests
end

namespace Sys2Proof.Machine

theorem isChannelStatus_iff (b : Byte) : isChannelStatus b = true ↔ 0x80#8 ≤ b ∧ b ≤ 0xEF#8 := by
  simp [isChannelStatus]

/-- A decoder step on a channel status byte (rule R141) depends on the byte by its family alone. -/
theorem decStep_channelStatus (b : Byte) (s : State) (h : isChannelStatus b = true) :
    decStep (some b) s = .next { s with rxs := b &&& 0xF0#8, pend := false, ev := .none } := by
  obtain ⟨hlo, hhi⟩ := (isChannelStatus_iff b).mp h
  have hsys : b ≤ 0xF7#8 := by bv_omega
  rw [decStep_status b s hlo hsys, famOf_channel_status b hhi]

/-- Settles O33: both steps store the family, which the two bytes share. -/
theorem channelOmni : Obligations.ChannelOmni := by
  unfold Obligations.ChannelOmni
  intro b b' s hb hb' hfam
  rw [decStep_channelStatus b s hb, decStep_channelStatus b' s hb', hfam]

end Sys2Proof.Machine

namespace Sys2Proof.Machine

/-! ## What every instruction is, as one operation for all states. -/

/-- `exec_cases` with the operation fixed before the state, so that it compares the runs of one instruction from two
states. -/
theorem exec_uniform (i : Instr) :
    (∃ d, ∀ s, exec i s = .next (s.dataByte d)) ∨
    (∃ b, ∀ s, exec i s = .next (s.statusByte b)) ∨
    (∃ b, ∀ s, exec i s = .next (s.rtByte b)) ∨
    (∃ f ch data, ∀ s, exec i s = .next (s.sendMessage f ch data)) ∨
    (∃ ch v, ∀ s, exec i s = .next (s.sendModWheel ch v)) ∨
    (∃ b, ∀ s, exec i s = .next (s.sendRealtime b)) := by
  cases i with
  | rxData => exact .inl ⟨_, fun _ => rfl⟩
  | rxNoteOff | rxNoteOn | rxPolyAftertouch | rxControlChange | rxProgramChange | rxChannelAftertouch | rxPitchWheel
  | rxSysexStart | rxScF1 | rxScF2 | rxScF3 | rxScF4 | rxScF5 | rxTuneRequest | rxSysexEnd =>
    exact .inr (.inl ⟨_, fun _ => rfl⟩)
  | rxRtTimingClock | rxRtF9 | rxRtStart | rxRtContinue | rxRtStop | rxRtFd | rxRtActiveSensing | rxRtReset =>
    exact .inr (.inr (.inl ⟨_, fun _ => rfl⟩))
  | noteOff | noteOn | controlChange | channelAftertouch | pitchWheel | pitchWheelSigned =>
    exact .inr (.inr (.inr (.inl ⟨_, _, _, fun _ => rfl⟩)))
  | modWheel => exact .inr (.inr (.inr (.inr (.inl ⟨_, _, fun _ => rfl⟩))))
  | rtTimingClock | rtStart | rtContinue | rtStop | rtActiveSensing | rtReset =>
    exact .inr (.inr (.inr (.inr (.inr ⟨_, fun _ => rfl⟩))))

/-- With nothing pending, `RXS` alone decides what a data byte does: it is stored, or it is dropped. -/
theorem State.dataByte_uniform (f : Byte) (d : Data) :
    (∃ r p, ∀ s : State, s.pend = false → s.rxs = f →
      s.dataByte d = { s with rxs := r, pend := p, d1 := d, ev := .none }) ∨
    (∃ r, ∀ s : State, s.pend = false → s.rxs = f → s.dataByte d = { s with rxs := r, ev := .none }) := by
  by_cases hf : f = NONE
  · refine .inr ⟨f, ?_⟩
    rintro s hp rfl
    exact State.dataByte_stray s d hp hf
  cases hframe : framingOf f with
  | twoBytes =>
    refine .inl ⟨f, true, ?_⟩
    rintro s hp rfl
    rw [State.dataByte_first s d hp hf, State.firstData_twoBytes s d hframe]
  | oneByte =>
    refine .inl ⟨f, false, ?_⟩
    rintro s hp rfl
    rw [State.dataByte_first s d hp hf, State.firstData_oneByte s d hframe, hp]
  | quirk =>
    refine .inl ⟨NONE, true, ?_⟩
    rintro s hp rfl
    rw [State.dataByte_first s d hp hf, State.firstData_quirk s d hframe]
  | terminus =>
    refine .inr ⟨NONE, ?_⟩
    rintro s hp rfl
    rw [State.dataByte_first s d hp hf, State.firstData_terminus s d hframe]

/-! ## What a step is, by the ports alone. -/

theorem encStep_none (s : State) : encStep none s = .next { s with txOut := [] } := by
  rw [← State.idleCommand_eq]
  rfl

theorem encStep_ok {w : Word24} {i : Instr} (h : decodeCommand w = .ok i) (s : State) :
    encStep (some w) s = exec i s := by
  simp [encStep, h]

theorem encStep_error {w : Word24} {e : Reject} (h : decodeCommand w = .error e) (s : State) :
    encStep (some w) s = .refused (refusalOf e) := by
  simp [encStep, h]

/-- Which unit a step runs, and on what (00_scope.md rule R6), is decided by the ports: it is the same
whatever `D1` holds. -/
theorem step_uniform (s : State) :
    (∃ r ts q, ∀ d, step (s.setD1 d) = decStep r ({ s with turns := ts, rxIn := q }.setD1 d)) ∨
    (∃ c ts q, ∀ d, step (s.setD1 d) = encStep c ({ s with turns := ts, cmdIn := q }.setD1 d)) ∨
    (∃ ts, ∀ d, step (s.setD1 d) = .next ({ s with turns := ts }.setD1 d).resetBlock) ∨
    (∀ d, step (s.setD1 d) = .refused .reentrantDecode) := by
  cases hturns : s.turns with
  | nil => exact .inl ⟨none, s.turns, s.rxIn, fun d =>
    (step_empty (s.setD1 d) hturns).trans (decStep_none _).symm⟩
  | cons turn ts =>
    cases turn with
    | decoder =>
      cases hrx : s.rxIn with
      | nil =>
        exact .inl ⟨none, ts, s.rxIn, fun d =>
          (step_decoder_nil (s.setD1 d) ts hturns hrx).trans (decStep_none ({ s with turns := ts }.setD1 d)).symm⟩
      | cons r q => exact .inl ⟨r, ts, q, fun d => step_decoder_cons _ ts r q hturns hrx⟩
    | encoder =>
      cases hcmd : s.cmdIn with
      | nil =>
        exact .inr (.inl ⟨none, ts, s.cmdIn, fun d =>
          (step_encoder_nil (s.setD1 d) ts hturns hcmd).trans (encStep_none ({ s with turns := ts }.setD1 d)).symm⟩)
      | cons c q => exact .inr (.inl ⟨c, ts, q, fun d => step_encoder_cons _ ts c q hturns hcmd⟩)
    | reset => exact .inr (.inr (.inl ⟨ts, fun d => step_reset _ ts hturns⟩))
    | nestedDecoder => exact .inr (.inr (.inr fun d => step_nested _ ts hturns))

/-! ## States that differ only in a `D1` that `PEND` does not hold (10_state.md rule R17). -/

theorem SameButD1.refl (s : State) : SameButD1 s s := ⟨rfl, fun _ => rfl⟩

/-- The second state is the first with another `D1`. -/
theorem SameButD1.eq_setD1 {s t : State} (h : SameButD1 s t) : t = s.setD1 t.d1 := by
  rw [← h.rest]
  rfl

/-- A status byte clears `PEND`, so it needs nothing of `D1`. -/
theorem sameButD1_statusByte (s : State) (d : Data) (b : Byte) :
    SameButD1 (s.statusByte b) ((s.setD1 d).statusByte b) := ⟨rfl, nofun⟩

section
variable {s : State} {d : Data} (h : s.pend = true → d = s.d1)
include h

theorem sameButD1_signal (e : Event) : SameButD1 (s.signal e) ((s.setD1 d).signal e) := ⟨rfl, h⟩

theorem sameButD1_emit (bs : List Byte) : SameButD1 (s.emit bs) ((s.setD1 d).emit bs) := ⟨rfl, h⟩

theorem sameButD1_afterSend (st : Byte) (data : List Byte) :
    SameButD1 (s.afterSend st data) ((s.setD1 d).afterSend st data) := ⟨rfl, h⟩

theorem sameButD1_dataByte (x : Data) : SameButD1 (s.dataByte x) ((s.setD1 d).dataByte x) := by
  by_cases hp : s.pend = true
  · rw [h hp]
    exact SameButD1.refl _
  have hp : s.pend = false := by simpa using hp
  rcases State.dataByte_uniform s.rxs x with ⟨r, p, k⟩ | ⟨r, k⟩ <;> rw [k s hp rfl, k (s.setD1 d) hp rfl]
  · exact SameButD1.refl _
  · exact ⟨rfl, h⟩

end

/-- Whatever next state the first outcome has, the second has one that differs from it only in a `D1` not held. -/
def AnswersSameButD1 (a b : Result) : Prop := ∀ s', a = .next s' → ∃ t', b = .next t' ∧ SameButD1 s' t'

theorem answersSameButD1_next {s t : State} (h : SameButD1 s t) : AnswersSameButD1 (.next s) (.next t) := by
  rintro _ ⟨⟩
  exact ⟨t, rfl, h⟩

theorem answersSameButD1_refused (r : Refusal) (b : Result) : AnswersSameButD1 (.refused r) b := nofun

section
variable {s : State} {d : Data} (h : s.pend = true → d = s.d1)
include h

theorem answersSameButD1_exec (i : Instr) : AnswersSameButD1 (exec i s) (exec i (s.setD1 d)) := by
  rcases exec_uniform i with ⟨x, hi⟩ | ⟨b, hi⟩ | ⟨b, hi⟩ | ⟨f, ch, data, hi⟩ | ⟨ch, v, hi⟩ | ⟨b, hi⟩ <;>
    rw [hi, hi] <;> apply answersSameButD1_next
  · exact sameButD1_dataByte h x
  · exact sameButD1_statusByte s d b
  · exact sameButD1_signal h _
  · rw [State.sendMessage_eq, State.sendMessage_eq]
    exact sameButD1_afterSend h _ _
  · rw [State.sendModWheel_eq, State.sendModWheel_eq]
    exact sameButD1_afterSend h _ _
  · exact sameButD1_emit h _

theorem answersSameButD1_decStep (r : Option Byte) : AnswersSameButD1 (decStep r s) (decStep r (s.setD1 d)) := by
  cases r with
  | none => exact answersSameButD1_next (sameButD1_signal h .none)
  | some b => exact answersSameButD1_exec h (decodeByte b)

theorem answersSameButD1_encStep (c : Option Word24) : AnswersSameButD1 (encStep c s) (encStep c (s.setD1 d)) := by
  cases c with
  | none => exact answersSameButD1_next (sameButD1_emit h [])
  | some w =>
    cases hw : decodeCommand w with
    | ok i =>
      rw [encStep_ok hw, encStep_ok hw]
      exact answersSameButD1_exec h i
    | error e =>
      rw [encStep_error hw]
      exact answersSameButD1_refused _ _

theorem answersSameButD1_step : AnswersSameButD1 (step s) (step (s.setD1 d)) := by
  rcases step_uniform s with ⟨r, ts, q, hstep⟩ | ⟨c, ts, q, hstep⟩ | ⟨ts, hstep⟩ | hstep <;>
    rw [show step s = step (s.setD1 s.d1) from rfl, hstep, hstep]
  · exact answersSameButD1_decStep (s := { s with turns := ts, rxIn := q }) h r
  · exact answersSameButD1_encStep (s := { s with turns := ts, cmdIn := q }) h c
  · exact answersSameButD1_next (SameButD1.refl _)
  · exact answersSameButD1_refused _ _

end

/-- Settles O32: where `PEND` holds `D1` the two states are one; elsewhere a step passes `D1` on, or writes it, but no
operation reads it. -/
theorem unwrittenD1NeverRead : Obligations.UnwrittenD1NeverRead := by
  unfold Obligations.UnwrittenD1NeverRead
  intro s t s' hst hstep
  rw [hst.eq_setD1]
  exact answersSameButD1_step hst.held s' hstep

/-! ## The frames of the two units (10_state.md rule R34) -/

/-- A data byte writes `RXS`, `PEND` and `D1` and signals one value on the event port, and does nothing else. -/
theorem State.dataByte_frame (s : State) (x : Data) :
    ∃ rxs pend d1 e, s.dataByte x = (((s.setRxs rxs).setPend pend).setD1 d1).signal e := by
  rcases State.dataByte_cases s x with ⟨_, h⟩ | ⟨_, _, h⟩ | ⟨_, _, _, h⟩ | ⟨_, _, _, h⟩ | ⟨_, _, _, h⟩ | ⟨_, _, _, h⟩
  · exact ⟨_, _, _, _, h⟩
  all_goals
    refine ⟨(s.dataByte x).rxs, (s.dataByte x).pend, (s.dataByte x).d1, .none, ?_⟩
    rw [h]
    simp [State.signal, State.setRxs, State.setPend, State.setD1]

/-- An input-byte instruction writes `RXS`, `PEND` and `D1` and signals one value, and does nothing else. -/
theorem exec_frame_of_isRx {i : Instr} {s t : State} (hi : i.isRx = true) (h : exec i s = .next t) :
    ∃ rxs pend d1 e, t = (((s.setRxs rxs).setPend pend).setD1 d1).signal e := by
  rcases exec_cases i s with ⟨x, _, k⟩ | ⟨b, _, _, _, k⟩ | ⟨b, _, _, k⟩ | ⟨_, _, _, _, _, hn, _⟩ | ⟨_, _, _, hn, _⟩
  · obtain rfl := Host.Outcome.next.inj (k.symm.trans h)
    exact s.dataByte_frame x
  · obtain rfl := Host.Outcome.next.inj (k.symm.trans h)
    exact ⟨famOf b, false, s.d1, .none, rfl⟩
  · obtain rfl := Host.Outcome.next.inj (k.symm.trans h)
    exact ⟨s.rxs, s.pend, s.d1, _, rfl⟩
  · simp [hi] at hn
  · simp [hi] at hn

theorem Event.logged_eq (e : Event) : (e = .none ∧ e.logged = []) ∨ (e ≠ .none ∧ e.logged = [e]) := by
  cases e <;> simp

/-- Settles O30: the decoder's writes are `RXS`, `PEND`, `D1` and one `signal`. -/
theorem decoderFrame : Obligations.DecoderFrame := by
  unfold Obligations.DecoderFrame
  intro i s t hi h
  obtain ⟨rxs, pend, d1, e, rfl⟩ := exec_frame_of_isRx hi h
  refine ⟨rfl, rfl, rfl, rfl, rfl, rfl, rfl, ?_⟩
  rcases e.logged_eq with ⟨he, hl⟩ | ⟨he, hl⟩
  · exact .inl ⟨he, by simp [hl]⟩
  · exact .inr ⟨he, by simp [hl]⟩

/-! ## The writers of `D1` (10_state.md rule R15) -/

/-- The statuses under which a first data byte is stored. -/
theorem framingOf_ne_terminus_iff : ∀ f : Byte, framingOf f ≠ .terminus ↔
    f ∈ [0x80#8, 0x90#8, 0xA0#8, 0xB0#8, 0xC0#8, 0xD0#8, 0xE0#8, 0xF2#8, 0xF3#8] := by decide

theorem State.dataByte_d1_first (s : State) (d : Data) (hp : s.pend = false) (hf : framingOf s.rxs ≠ .terminus) :
    (s.dataByte d).d1 = d := by
  rcases State.dataByte_cases s d with ⟨hp', _⟩ | ⟨_, hr, _⟩ | ⟨_, _, _, h⟩ | ⟨_, _, _, h⟩ | ⟨_, _, _, h⟩ | ⟨_, _, hf', _⟩
  · simp [hp] at hp'
  · exact absurd (hr ▸ rfl) hf
  · rw [h]
  · rw [h]
  · rw [h]
  · exact absurd hf' hf

theorem State.dataByte_d1_other (s : State) (d : Data) (h : ¬(s.pend = false ∧ framingOf s.rxs ≠ .terminus)) :
    (s.dataByte d).d1 = s.d1 := by
  rcases State.dataByte_cases s d with ⟨_, k⟩ | ⟨_, _, k⟩ | ⟨hp, _, hf, _⟩ | ⟨hp, _, hf, _⟩ | ⟨hp, _, hf, _⟩ | ⟨_, _, _, k⟩
  · rw [k]
  · rw [k]
  · simp [hp, hf] at h
  · simp [hp, hf] at h
  · simp [hp, hf] at h
  · rw [k]

/-- No instruction but RX_DATA writes `D1`. -/
theorem exec_d1_of_ne_rxData {i : Instr} {s t : State} (hi : ∀ d, i ≠ .rxData d) (h : exec i s = .next t) :
    t.d1 = s.d1 := by
  rcases exec_cases i s with ⟨d, hd, _⟩ | ⟨_, _, _, _, k⟩ | ⟨_, _, _, k⟩ | ⟨_, _, _, _, _, _, k⟩ | ⟨_, _, _, _, k⟩
  · exact absurd hd (hi d)
  all_goals
    obtain rfl := Host.Outcome.next.inj (k.symm.trans h)
    rfl

/-- Settles O31: RX_DATA by its framing, every other instruction by `exec_d1_of_ne_rxData`. -/
theorem d1Writers : Obligations.D1Writers := by
  unfold Obligations.D1Writers
  intro i s t h
  simp only [← framingOf_ne_terminus_iff]
  by_cases hi : ∃ d, i = .rxData d
  · obtain ⟨d, rfl⟩ := hi
    obtain rfl : s.dataByte d = t := Host.Outcome.next.inj h
    refine ⟨?_, fun hn => s.dataByte_d1_other d fun hd => hn ⟨d, rfl, hd⟩⟩
    rintro _ ⟨⟩ hp hf
    exact s.dataByte_d1_first d hp hf
  · exact ⟨fun d hd => absurd ⟨d, hd⟩ hi, fun _ => exec_d1_of_ne_rxData (fun d hd => hi ⟨d, hd⟩) h⟩

/-! ## The encoder's frame -/

theorem isRx_eq_width (i : Instr) : i.isRx = ((encode i).width == 8) := by
  cases i <;> rfl

theorem isRx_of_encode_rx {i : Instr} {b : Byte} (h : encode i = .rx b) : i.isRx = true := by
  rw [isRx_eq_width, h]
  rfl

theorem txStatus_of_txRealtime {i : Instr} {b : Byte} (h : i.txRealtime = some b) : i.txStatus = none := by
  cases i with
  | rtTimingClock | rtStart | rtContinue | rtStop | rtActiveSensing | rtReset => rfl
  | _ => cases h

/-- A command writes `TXS` and emits, and does nothing else: `TXS` ends as the command's status byte, if it has one. -/
theorem exec_frame_of_not_isRx {i : Instr} {s t : State} (hi : i.isRx = false) (h : exec i s = .next t) :
    ∃ bs, t = (s.setTxs (i.txStatus.getD s.txs)).emit bs := by
  rcases exec_cases i s with ⟨_, rfl, _⟩ | ⟨_, _, _, hc, _⟩ | ⟨_, _, hc, _⟩ | ⟨st, data, hst, _, _, _, k⟩ | ⟨b, hb, _, _, k⟩
  · cases hi
  · simp [isRx_of_encode_rx hc] at hi
  · simp [isRx_of_encode_rx hc] at hi
  · obtain rfl := Host.Outcome.next.inj (k.symm.trans h)
    exact ⟨(if s.txs = st then [] else [st]) ++ data, by
      simp [hst, State.afterSend, State.emit, State.setTxs]⟩
  · obtain rfl := Host.Outcome.next.inj (k.symm.trans h)
    rw [txStatus_of_txRealtime hb]
    exact ⟨[b], rfl⟩

/-- Settles O47: the encoder's writes are `TXS` and one `emit`. -/
theorem encoderFrame : Obligations.EncoderFrame := by
  unfold Obligations.EncoderFrame
  intro i s t hi h
  obtain ⟨bs, rfl⟩ := exec_frame_of_not_isRx hi h
  exact ⟨rfl, rfl, rfl, rfl, rfl, rfl, rfl, rfl, rfl, rfl, rfl⟩

/-! ## The invariant -/

/-- Settles O52: `NONE` is legal in both status registers, and nothing is pending, emitted or signalled. -/
theorem invAtReset : Obligations.InvAtReset := by
  unfold Obligations.InvAtReset
  exact ⟨by decide, nofun, .inl rfl, by decide, rfl, nofun⟩

theorem none_mem_legalRxs : NONE ∈ legalRxs := by decide

theorem none_mem_pendRxs : NONE ∈ pendRxs := by decide

theorem famOf_mem_legalRxs : ∀ b : Byte, 0x80#8 ≤ b → b ≤ 0xF7#8 → famOf b ∈ legalRxs := by decide

theorem mem_pendRxs_of_twoBytes : ∀ f : Byte, framingOf f = .twoBytes → f ∈ pendRxs := by decide

theorem secondStatus_mem_legalRxs {f : Byte} (h : f ∈ legalRxs) : secondStatus f ∈ legalRxs := by
  unfold secondStatus
  split
  · exact h
  split
  · exact h
  · decide

theorem secondEvent_legal (f : Byte) (d1 d : Data) : (secondEvent f d1 d).legal = true := by
  unfold secondEvent
  split_ifs <;> rfl

theorem mem_logged {e e' : Event} (h : e' ∈ e.logged) : e' = e ∧ e' ≠ .none := by
  rcases e.logged_eq with ⟨_, hl⟩ | ⟨hn, hl⟩
  · simp [hl] at h
  · obtain rfl : e' = e := by simpa [hl] using h
    exact ⟨rfl, hn⟩

theorem txDataLength_le_four (i : Instr) : i.txDataLength ≤ 4 := by
  unfold Instr.txDataLength
  split <;> decide

namespace State.Inv

variable {s : State} (h : s.Inv)
include h

theorem signal {e : Event} (he : e.legal = true) : (s.signal e).Inv where
  rxs_legal := h.rxs_legal
  pend_legal := h.pend_legal
  txs_legal := h.txs_legal
  txOut_bound := h.txOut_bound
  ev_legal := he
  evLog_legal e' he' := by
    rcases List.mem_append.mp he' with hold | hnew
    · exact h.evLog_legal e' hold
    · obtain ⟨rfl, hn⟩ := mem_logged hnew
      exact ⟨he, hn⟩

theorem emit {bs : List Byte} (hbs : bs.length ≤ 5) : (s.emit bs).Inv := { h with txOut_bound := hbs }

theorem statusByte {b : Byte} (hlo : 0x80#8 ≤ b) (hhi : b ≤ 0xF7#8) : (s.statusByte b).Inv := by
  rw [State.statusByte_eq]
  exact { h with rxs_legal := famOf_mem_legalRxs b hlo hhi, pend_legal := nofun, ev_legal := rfl }

theorem dataByte (d : Data) : (s.dataByte d).Inv := by
  rcases State.dataByte_cases s d with
    ⟨hp, k⟩ | ⟨_, _, k⟩ | ⟨_, _, hf, k⟩ | ⟨_, _, _, k⟩ | ⟨_, _, _, k⟩ | ⟨hp, _, _, k⟩
  · rw [State.dataByte_second s d hp]
    have hfirst : ((s.setPend false).setRxs (secondStatus s.rxs)).Inv :=
      { h with rxs_legal := secondStatus_mem_legalRxs h.rxs_legal, pend_legal := nofun }
    exact hfirst.signal (secondEvent_legal _ _ _)
  all_goals rw [k]
  · exact { h with ev_legal := rfl }
  · exact { h with pend_legal := fun _ => mem_pendRxs_of_twoBytes _ hf, ev_legal := rfl }
  · exact { h with ev_legal := rfl }
  · exact { h with rxs_legal := none_mem_legalRxs, pend_legal := fun _ => none_mem_pendRxs, ev_legal := rfl }
  · exact { h with rxs_legal := none_mem_legalRxs, pend_legal := fun _ => none_mem_pendRxs, ev_legal := rfl }

theorem afterSend {st : Byte} {data : List Byte} (hst : isChannelStatus st = true) (hlen : data.length ≤ 4) :
    (s.afterSend st data).Inv where
  rxs_legal := h.rxs_legal
  pend_legal := h.pend_legal
  txs_legal := .inr hst
  txOut_bound := by
    unfold State.afterSend
    split <;> simp <;> omega
  ev_legal := h.ev_legal
  evLog_legal := h.evLog_legal

theorem resetBlock : s.resetBlock.Inv where
  rxs_legal := none_mem_legalRxs
  pend_legal := nofun
  txs_legal := .inl rfl
  txOut_bound := Nat.zero_le 5
  ev_legal := rfl
  evLog_legal := h.evLog_legal

theorem of_exec {i : Instr} {t : State} (ht : exec i s = .next t) : t.Inv := by
  rcases exec_cases i s with ⟨d, _, k⟩ | ⟨b, hlo, hhi, _, k⟩ | ⟨b, hb, _, k⟩ | ⟨st, data, hst, hlen, _, _, k⟩ |
    ⟨b, _, _, _, k⟩ <;>
    obtain rfl := Host.Outcome.next.inj (k.symm.trans ht)
  · exact h.dataByte d
  · exact h.statusByte hlo hhi
  · exact h.signal (by simpa [Event.legal, isRealtimeByte] using hb)
  · exact h.afterSend (isChannelStatus_txStatus i st hst) (hlen ▸ txDataLength_le_four i)
  · exact h.emit (Nat.le_of_ble_eq_true rfl)

theorem of_decStep {r : Option Byte} {t : State} (ht : decStep r s = .next t) : t.Inv := by
  cases r with
  | none =>
    obtain rfl := Host.Outcome.next.inj ht
    exact h.signal rfl
  | some b => exact h.of_exec ht

theorem of_encStep {c : Option Word24} {t : State} (ht : encStep c s = .next t) : t.Inv := by
  rcases encStep_cases c s with ⟨_, k⟩ | ⟨_, _, _, _, k⟩ | ⟨_, i, _, _, k⟩ <;> rw [k] at ht
  · obtain rfl := Host.Outcome.next.inj ht
    exact { h with txOut_bound := Nat.zero_le 5 }
  · cases ht
  · exact h.of_exec ht

end State.Inv

/-- Settles O53: each unit's step keeps the invariant, which reads no input port, and a reset restores it. -/
theorem stepKeepsInv : Obligations.StepKeepsInv := by
  unfold Obligations.StepKeepsInv
  intro s t h ht
  rcases step_uniform s with ⟨r, ts, q, k⟩ | ⟨c, ts, q, k⟩ | ⟨ts, k⟩ | k <;> rw [show step s = _ from k s.d1] at ht
  · have hports : ({ s with turns := ts, rxIn := q }.setD1 s.d1).Inv := { h with }
    exact hports.of_decStep ht
  · have hports : ({ s with turns := ts, cmdIn := q }.setD1 s.d1).Inv := { h with }
    exact hports.of_encStep ht
  · obtain rfl := Host.Outcome.next.inj ht
    have hports : ({ s with turns := ts }.setD1 s.d1).Inv := { h with }
    exact hports.resetBlock
  · cases ht

/-! ## What the host presents (10_state.md rule R26, rule R28) -/

/-- The inputs still on the ports and the turns still to come, changed by the host. -/
def State.mapPorts (fr : List (Option Byte) → List (Option Byte)) (fc : List (Option Word24) → List (Option Word24))
    (ft : List Turn → List Turn) (s : State) : State :=
  { s with rxIn := fr s.rxIn, cmdIn := fc s.cmdIn, turns := ft s.turns }

/-- The outcome, with its next state changed. -/
def mapNext (g : State → State) : Result → Result
  | .next s => .next (g s)
  | .fault r => .fault r
  | .refused r => .refused r

section
variable (fr : List (Option Byte) → List (Option Byte)) (fc : List (Option Word24) → List (Option Word24))
  (ft : List Turn → List Turn)

theorem State.dataByte_mapPorts (s : State) (d : Data) :
    (s.mapPorts fr fc ft).dataByte d = (s.dataByte d).mapPorts fr fc ft := by
  cases hp : s.pend with
  | true =>
    rw [State.dataByte_second s d hp, State.dataByte_second (s.mapPorts fr fc ft) d hp]
    rfl
  | false =>
    rcases State.dataByte_uniform s.rxs d with ⟨r, p, k⟩ | ⟨r, k⟩ <;>
      rw [k s hp rfl, k (s.mapPorts fr fc ft) hp rfl] <;> rfl

/-- An instruction reads and writes none of the inputs, so the host may change them before it or after it. -/
theorem exec_mapPorts (i : Instr) (s : State) :
    exec i (s.mapPorts fr fc ft) = mapNext (State.mapPorts fr fc ft) (exec i s) := by
  rcases exec_uniform i with ⟨x, hi⟩ | ⟨b, hi⟩ | ⟨b, hi⟩ | ⟨f, ch, data, hi⟩ | ⟨ch, v, hi⟩ | ⟨b, hi⟩ <;>
    rw [hi, hi] <;> refine congrArg Host.Outcome.next ?_
  · exact State.dataByte_mapPorts fr fc ft s x
  · rfl
  · rfl
  · rw [State.sendMessage_eq, State.sendMessage_eq]
    rfl
  · rw [State.sendModWheel_eq, State.sendModWheel_eq]
    rfl
  · rfl

theorem decStep_mapPorts (r : Option Byte) (s : State) :
    decStep r (s.mapPorts fr fc ft) = mapNext (State.mapPorts fr fc ft) (decStep r s) := by
  cases r with
  | none => rfl
  | some b => exact exec_mapPorts fr fc ft (decodeByte b) s

theorem encStep_mapPorts (c : Option Word24) (s : State) :
    encStep c (s.mapPorts fr fc ft) = mapNext (State.mapPorts fr fc ft) (encStep c s) := by
  cases c with
  | none => rfl
  | some w =>
    cases hw : decodeCommand w with
    | ok i =>
      rw [encStep_ok hw, encStep_ok hw]
      exact exec_mapPorts fr fc ft i s
    | error e =>
      rw [encStep_error hw, encStep_error hw]
      rfl

end

/-- No instruction takes an input or a turn: the step that runs it has done so. -/
theorem exec_ports {i : Instr} {s t : State} (h : exec i s = .next t) :
    t.rxIn = s.rxIn ∧ t.cmdIn = s.cmdIn ∧ t.turns = s.turns := by
  cases hi : i.isRx with
  | true =>
    obtain ⟨_, _, _, _, rfl⟩ := exec_frame_of_isRx hi h
    exact ⟨rfl, rfl, rfl⟩
  | false =>
    obtain ⟨_, rfl⟩ := exec_frame_of_not_isRx hi h
    exact ⟨rfl, rfl, rfl⟩

theorem decStep_ports {r : Option Byte} {s t : State} (h : decStep r s = .next t) :
    t.rxIn = s.rxIn ∧ t.cmdIn = s.cmdIn ∧ t.turns = s.turns := by
  cases r with
  | none =>
    obtain rfl := Host.Outcome.next.inj h
    exact ⟨rfl, rfl, rfl⟩
  | some b => exact exec_ports h

theorem encStep_ports {c : Option Word24} {s t : State} (h : encStep c s = .next t) :
    t.rxIn = s.rxIn ∧ t.cmdIn = s.cmdIn ∧ t.turns = s.turns := by
  rcases encStep_cases c s with ⟨_, k⟩ | ⟨_, _, _, _, k⟩ | ⟨_, i, _, _, k⟩ <;> rw [k] at h
  · obtain rfl := Host.Outcome.next.inj h
    exact ⟨rfl, rfl, rfl⟩
  · cases h
  · exact exec_ports h

theorem core_run_next {s t : State} {k : Nat} (h : step s = .next t) : core.run (k + 1) s = core.run k t := by
  have hcore : core.step s = .next t := h
  simp [Host.Core.run, hcore]

theorem core_run_refused {s : State} {k : Nat} {r : Refusal} (h : step s = .refused r) :
    core.run (k + 1) s = .refused r := by
  have hcore : core.step s = .refused r := h
  simp [Host.Core.run, hcore]

theorem runAll_refused {α : Type} {f : α → State → Result} {a : α} {xs : List α} {s : State} {r : Refusal}
    (h : f a s = .refused r) : runAll f (a :: xs) s = .refused r := by
  simp [runAll, h]

/-- Running what is presented, for either unit: `f` is the unit's step on one input, `present` puts a stream of inputs on
its port, and `Idle` says that nothing else is waiting. -/
theorem run_present {α : Type} {f : α → State → Result} {present : List α → State → State} {Idle : State → Prop}
    (hnil : ∀ s, Idle s → present [] s = s)
    (hstep : ∀ a xs s, Idle s → step (present (a :: xs) s) = mapNext (present xs) (f a s))
    (hidle : ∀ a s t, Idle s → f a s = .next t → Idle t) (xs : List α) (s : State) (hs : Idle s) :
    core.run xs.length (present xs s) = runAll f xs s := by
  induction xs generalizing s with
  | nil => exact congrArg Host.Outcome.next (hnil s hs)
  | cons a xs ih =>
    have hfirst := hstep a xs s hs
    cases ha : f a s with
    | next t =>
      rw [ha] at hfirst
      rw [List.length_cons, core_run_next hfirst, runAll_cons f a xs s t ha]
      exact ih t (hidle a s t hs ha)
    | fault r => cases r
    | refused r =>
      rw [ha] at hfirst
      exact (core_run_refused hfirst).trans (runAll_refused ha).symm

/-- One decoder step takes the first of the polls that stand alone on the port. -/
theorem step_presentPolls_cons (r : Option Byte) (polls : List (Option Byte)) (s : State)
    (hs : s.turns = [] ∧ s.rxIn = []) :
    step (s.presentPolls (r :: polls)) = mapNext (fun t => t.presentPolls polls) (decStep r s) := by
  obtain ⟨hturns, hrx⟩ := hs
  rw [step_decoder_cons _ (polls.map fun _ => Turn.decoder) r polls (by simp [State.presentPolls, hturns])
    (by simp [State.presentPolls, hrx])]
  have hrest : decStep r (s.presentPolls polls) = mapNext (fun t => t.presentPolls polls) (decStep r s) :=
    decStep_mapPorts (· ++ polls) id (· ++ polls.map fun _ => Turn.decoder) r s
  rw [← hrest]
  simp [State.presentPolls, hturns, hrx]

/-- One encoder step takes the first of the commands that stand alone on the port. -/
theorem step_presentCommands_cons (c : Option Word24) (commands : List (Option Word24)) (s : State)
    (hs : s.turns = [] ∧ s.cmdIn = []) :
    step (s.presentCommands (c :: commands)) = mapNext (fun t => t.presentCommands commands) (encStep c s) := by
  obtain ⟨hturns, hcmd⟩ := hs
  rw [step_encoder_cons _ (commands.map fun _ => Turn.encoder) c commands (by simp [State.presentCommands, hturns])
    (by simp [State.presentCommands, hcmd])]
  have hrest : encStep c (s.presentCommands commands) = mapNext (fun t => t.presentCommands commands) (encStep c s) :=
    encStep_mapPorts id (· ++ commands) (· ++ commands.map fun _ => Turn.encoder) c s
  rw [← hrest]
  simp [State.presentCommands, hturns, hcmd]

/-- Settles O58, by induction on the stream: a step takes its first input, and the unit's step commutes with presenting
the rest. -/
theorem presentedInputsRunInOrder : Obligations.PresentedInputsRunInOrder := by
  unfold Obligations.PresentedInputsRunInOrder
  constructor
  · intro polls s hturns hrx
    refine run_present (present := fun xs s => s.presentPolls xs) (fun s _ => by simp [State.presentPolls])
      step_presentPolls_cons (fun r s t hs h => ?_) polls s ⟨hturns, hrx⟩
    obtain ⟨hrxIn, _, hts⟩ := decStep_ports h
    rwa [hrxIn, hts]
  · intro commands s hturns hcmd
    refine run_present (present := fun xs s => s.presentCommands xs) (fun s _ => by simp [State.presentCommands])
      step_presentCommands_cons (fun c s t hs h => ?_) commands s ⟨hturns, hcmd⟩
    obtain ⟨_, hcmdIn, hts⟩ := encStep_ports h
    rwa [hcmdIn, hts]

/-! ## Reset values, unreachable statuses and the diagnostic tuple -/

/-- Settles O14: a channel status byte has bit 7 set, and `NONE` has not. -/
theorem resetValues : Obligations.ResetValues := by
  unfold Obligations.ResetValues
  refine ⟨rfl, rfl, rfl, rfl, ?_⟩
  rintro b hb rfl
  cases hb

theorem framingOf_of_not_legal : ∀ f : Byte, f ∉ legalRxs → framingOf f = .terminus := by decide

theorem secondStatus_of_not_legal : ∀ f : Byte, f ∉ legalRxs → secondStatus f = NONE := by decide

theorem secondEvent_of_not_legal {f : Byte} (h : f ∉ legalRxs) (d1 d : Data) : secondEvent f d1 d = .none := by
  simp only [legalRxs, List.cons_append, List.mem_cons, not_or] at h
  simp [secondEvent, h]

/-- Settles O29: such a status is framed as a terminus, and as a second byte's status it has no event and is cleared. -/
theorem unreachableStatusEnds : Obligations.UnreachableStatusEnds := by
  unfold Obligations.UnreachableStatusEnds
  intro s d h
  refine congrArg Host.Outcome.next ?_
  cases hp : s.pend with
  | true =>
    rw [State.dataByte_second s d hp, State.secondData_eq]
    simp [State.setPend, secondStatus_of_not_legal _ h, secondEvent_of_not_legal h]
  | false =>
    have hr : s.rxs ≠ NONE := fun hr => h (hr ▸ none_mem_legalRxs)
    rw [State.dataByte_first s d hp hr, State.firstData_terminus s d (framingOf_of_not_legal _ h), hp]

/-- Settles O57, by the values of `PEND` and `RXS`, which decide the tag and the abstract state alike. -/
theorem diagnosticTuple : Obligations.DiagnosticTuple := by
  unfold Obligations.DiagnosticTuple
  intro s
  cases hp : s.pend <;> by_cases hr : s.rxs = NONE <;> simp [State.tag, State.diag, State.abs, hp, hr]

end Sys2Proof.Machine

namespace Sys2Proof.Machine

/-! ## Decoder steps and encoder steps side by side (20_memory.md rule R53)

Each unit's step is one update of the unit's own fields, and which update it is depends on nothing but what the unit
reads. So it is the same update before and after a step of the other unit. -/

/-- The update a data byte makes is the same in all states with the same `RXS`, `PEND` and `D1`. -/
theorem State.dataByte_update (d : Data) (s : State) : ∃ rxs pend d1 e, ∀ t : State,
    t.rxs = s.rxs → t.pend = s.pend → t.d1 = s.d1 →
      t.dataByte d = (((t.setRxs rxs).setPend pend).setD1 d1).signal e := by
  cases hp : s.pend with
  | true =>
    refine ⟨secondStatus s.rxs, false, s.d1, secondEvent s.rxs s.d1 d, fun t hrxs hpend hd1 => ?_⟩
    rw [State.dataByte_second t d hpend, State.secondData_eq, ← hrxs, ← hd1]
    rfl
  | false =>
    rcases State.dataByte_uniform s.rxs d with ⟨r, p, k⟩ | ⟨r, k⟩
    · refine ⟨r, p, d, .none, fun t hrxs hpend _ => ?_⟩
      rw [k t hpend hrxs]
      simp [State.signal, State.setRxs, State.setPend, State.setD1]
    · refine ⟨r, false, s.d1, .none, fun t hrxs hpend hd1 => ?_⟩
      rw [k t hpend hrxs, ← hpend, ← hd1]
      simp [State.signal, State.setRxs, State.setPend, State.setD1]

/-- The update a decoder step makes is the same in all states with the same `RXS`, `PEND` and `D1`. -/
theorem decStep_update (r : Option Byte) (s : State) : ∃ rxs pend d1 e, ∀ t : State,
    t.rxs = s.rxs → t.pend = s.pend → t.d1 = s.d1 →
      decStep r t = .next ((((t.setRxs rxs).setPend pend).setD1 d1).signal e) := by
  cases r with
  | none =>
    refine ⟨s.rxs, s.pend, s.d1, .none, fun t hrxs hpend hd1 => ?_⟩
    rw [← hrxs, ← hpend, ← hd1]
    rfl
  | some b =>
    rcases decStep_byte_cases b s with ⟨hb, _⟩ | ⟨hlo, hhi, _⟩ | ⟨hb, _⟩
    · obtain ⟨rxs, pend, d1, e, hdata⟩ := s.dataByte_update (dataOf b)
      exact ⟨rxs, pend, d1, e, fun t hrxs hpend hd1 => by rw [decStep_data b t hb, hdata t hrxs hpend hd1]⟩
    · refine ⟨famOf b, false, s.d1, .none, fun t _ _ hd1 => ?_⟩
      rw [decStep_status b t hlo hhi, ← State.statusByte_eq, ← hd1]
      rfl
    · refine ⟨s.rxs, s.pend, s.d1, .realtime b, fun t hrxs hpend hd1 => ?_⟩
      rw [decStep_realtime b t hb, ← hrxs, ← hpend, ← hd1]
      rfl

/-- Rule R101: of the state, the update a channel message makes reads `TXS` alone. -/
theorem State.afterSend_update {s t : State} (h : t.txs = s.txs) (st : Byte) (data : List Byte) :
    t.afterSend st data = (t.setTxs st).emit ((if s.txs = st then [] else [st]) ++ data) := by
  simp [State.afterSend, State.emit, State.setTxs, h]

/-- `TXS` is kept (40_encoder.md rule R110), so the update may write back the value it has. -/
theorem State.sendRealtime_update {s t : State} (h : t.txs = s.txs) (b : Byte) :
    t.sendRealtime b = (t.setTxs s.txs).emit [b] := by
  rw [← h]
  rfl

/-- The update a command makes is the same in all states with the same `TXS` and configuration. -/
theorem exec_update_of_not_isRx {i : Instr} (hi : i.isRx = false) (s : State) : ∃ txs bs, ∀ t : State,
    t.txs = s.txs → t.cfg = s.cfg → exec i t = .next ((t.setTxs txs).emit bs) := by
  cases i with
  | noteOff | noteOn | controlChange | channelAftertouch | pitchWheel | pitchWheelSigned =>
    exact ⟨_, _, fun t htxs _ =>
      congrArg Host.Outcome.next ((State.sendMessage_eq t _ _ _).trans (State.afterSend_update htxs _ _))⟩
  | modWheel ch v =>
    refine ⟨statusByteOf 0xB0#8 ch, (s.sendModWheel ch v).txOut, fun t htxs hcfg => congrArg Host.Outcome.next ?_⟩
    rw [State.sendModWheel_eq, State.sendModWheel_eq, hcfg, State.afterSend_update htxs]
    rfl
  | rtTimingClock | rtStart | rtContinue | rtStop | rtActiveSensing | rtReset =>
    exact ⟨_, _, fun t htxs _ => congrArg Host.Outcome.next (State.sendRealtime_update htxs _)⟩
  | _ => cases hi

theorem isRx_eq_false_of_decodeCommand {w : Word24} {i : Instr} (h : decodeCommand w = .ok i) : i.isRx = false := by
  revert h
  fun_cases decodeCommand w <;> rintro ⟨⟩ <;> rfl

/-- An encoder step is refused in every state, or makes the same update in all states with the same `TXS` and
configuration. -/
theorem encStep_update (c : Option Word24) (s : State) :
    (∃ r, ∀ t, encStep c t = .refused r) ∨
    (∃ txs bs, ∀ t : State, t.txs = s.txs → t.cfg = s.cfg → encStep c t = .next ((t.setTxs txs).emit bs)) := by
  cases c with
  | none => exact .inr ⟨s.txs, [], fun t htxs _ => by rw [← htxs]; rfl⟩
  | some w =>
    cases hw : decodeCommand w with
    | error e => exact .inl ⟨_, encStep_error hw⟩
    | ok i =>
      obtain ⟨txs, bs, hi⟩ := exec_update_of_not_isRx (isRx_eq_false_of_decodeCommand hw) s
      exact .inr ⟨txs, bs, fun t htxs hcfg => by rw [encStep_ok hw, hi t htxs hcfg]⟩

/-- Settles O51: each unit makes the same update before and after the other's step, and the two updates write different
fields. -/
theorem unitsCommute : Obligations.UnitsCommute := by
  unfold Obligations.UnitsCommute
  intro r c s
  obtain ⟨rxs, pend, d1, e, hdec⟩ := decStep_update r s
  refine ⟨_, hdec s rfl rfl rfl, ?_⟩
  rcases encStep_update c s with ⟨x, henc⟩ | ⟨txs, bs, henc⟩
  · simp [henc]
  · simp only [henc s rfl rfl]
    refine ⟨?_, nofun⟩
    rintro _ ⟨⟩
    exact ⟨_, hdec _ rfl rfl rfl, henc _ rfl rfl⟩

/-! ## Where events come from (20_memory.md rule R50) -/

theorem encStep_evLog {c : Option Word24} {s t : State} (h : encStep c s = .next t) : t.evLog = s.evLog := by
  rcases encStep_update c s with ⟨_, k⟩ | ⟨_, _, k⟩
  · simp [k] at h
  · obtain rfl := Host.Outcome.next.inj ((k s rfl rfl).symm.trans h)
    rfl

/-- A step leaves the event record alone, or it is a decoder step on a byte, which records what it drives on the event
port. -/
theorem step_evLog {s t : State} (h : step s = .next t) :
    t.evLog = s.evLog ∨
    ∃ ts b q e, s.turns = .decoder :: ts ∧ s.rxIn = some b :: q ∧ t.evLog = s.evLog ++ Event.logged e := by
  cases hturns : s.turns with
  | nil =>
    obtain rfl := Host.Outcome.next.inj ((step_empty s hturns).symm.trans h)
    exact .inl rfl
  | cons turn ts =>
    cases turn with
    | decoder =>
      cases hrx : s.rxIn with
      | nil =>
        obtain rfl := Host.Outcome.next.inj ((step_decoder_nil s ts hturns hrx).symm.trans h)
        exact .inl rfl
      | cons r q =>
        rw [step_decoder_cons s ts r q hturns hrx] at h
        cases r with
        | none =>
          obtain rfl := Host.Outcome.next.inj ((decStep_none _).symm.trans h)
          exact .inl rfl
        | some b =>
          obtain ⟨_, _, _, e, rfl⟩ := exec_frame_of_isRx (decodeByte_isRx b) h
          exact .inr ⟨ts, b, q, e, rfl, rfl, rfl⟩
    | encoder =>
      cases hcmd : s.cmdIn with
      | nil =>
        obtain rfl := Host.Outcome.next.inj ((step_encoder_nil s ts hturns hcmd).symm.trans h)
        exact .inl rfl
      | cons c q =>
        rw [step_encoder_cons s ts c q hturns hcmd] at h
        exact .inl (encStep_evLog h :)
    | reset =>
      obtain rfl := Host.Outcome.next.inj ((step_reset s ts hturns).symm.trans h)
      exact .inl rfl
    | nestedDecoder =>
      rw [step_nested s ts hturns] at h
      cases h

theorem Event.logged_length_le_one (e : Event) : e.logged.length ≤ 1 := by
  rcases e.logged_eq with ⟨_, hl⟩ | ⟨_, hl⟩ <;> simp [hl]

/-- Settles O55: only a decoder step on a byte touches the record, and it records what the one `signal` does. -/
theorem eventsAnswerBytes : Obligations.EventsAnswerBytes := by
  unfold Obligations.EventsAnswerBytes
  intro s t h
  rcases step_evLog h with hlog | ⟨ts, b, q, e, hturns, hrx, hlog⟩
  · exact ⟨[], by simp [hlog], by simp, nofun⟩
  · exact ⟨e.logged, hlog, e.logged_length_le_one, fun _ => ⟨by simp [hturns], b, q, hrx⟩⟩

end Sys2Proof.Machine

namespace Sys2Proof.Machine

/-! ## The fields of a command word (30_encoding.md rule R72) -/

@[simp] theorem opOf_commandWord (op : BitVec 4) (ch : Chan) (p : Word16) : opOf (commandWord op ch p) = op :=
  BitVec.extractLsb'_append_eq_left

@[simp] theorem chOf_commandWord (op : BitVec 4) (ch : Chan) (p : Word16) : chOf (commandWord op ch p) = ch :=
  (BitVec.extractLsb'_append_eq_of_add_le (by decide)).trans BitVec.extractLsb'_append_eq_left

@[simp] theorem pOf_commandWord (op : BitVec 4) (ch : Chan) (p : Word16) : pOf (commandWord op ch p) = p :=
  (BitVec.extractLsb'_append_eq_of_add_le (by decide)).trans BitVec.extractLsb'_append_eq_right

@[simp] theorem hiByte_append (a b : Byte) : hiByte (a ++ b) = a := BitVec.extractLsb'_append_eq_left

@[simp] theorem loByte_append (a b : Byte) : loByte (a ++ b) = b := BitVec.extractLsb'_append_eq_right

@[simp] theorem hiByte_append_loByte (p : Word16) : hiByte p ++ loByte p = p :=
  (BitVec.extractLsb'_append_extractLsb'_eq_extractLsb' rfl).trans BitVec.extractLsb'_eq_self

/-- The three fields make up the whole word. -/
theorem commandWord_of_opOf {w : Word24} {op : BitVec 4} (h : opOf w = op) : commandWord op (chOf w) (pOf w) = w := by
  have hlow : chOf w ++ pOf w = w.extractLsb' 0 20 := BitVec.extractLsb'_append_extractLsb'_eq_extractLsb' rfl
  rw [commandWord, hlow, ← h]
  exact (BitVec.extractLsb'_append_extractLsb'_eq_extractLsb' rfl).trans BitVec.extractLsb'_eq_self

/-! ## Decoding and encoding agree (rule R81, rule R82) -/

theorem decodeByte_statusByteOf : ∀ ch : Chan,
    decodeByte (statusByteOf 0x80#8 ch) = .rxNoteOff ch ∧
    decodeByte (statusByteOf 0x90#8 ch) = .rxNoteOn ch ∧
    decodeByte (statusByteOf 0xA0#8 ch) = .rxPolyAftertouch ch ∧
    decodeByte (statusByteOf 0xB0#8 ch) = .rxControlChange ch ∧
    decodeByte (statusByteOf 0xC0#8 ch) = .rxProgramChange ch ∧
    decodeByte (statusByteOf 0xD0#8 ch) = .rxChannelAftertouch ch ∧
    decodeByte (statusByteOf 0xE0#8 ch) = .rxPitchWheel ch := by decide

/-- Form CS holds every signed operand that fits it. -/
theorem toInt_ofInt_of_fitsSigned16 {sv : Int} (h : fitsSigned16 sv = true) : (BitVec.ofInt 16 sv).toInt = sv := by
  obtain ⟨hlo, hhi⟩ := of_decide_eq_true h
  exact BitVec.toInt_ofInt_eq_self (by decide) hlo (Int.lt_add_one_of_le hhi)

/-- Settles O2: a status byte by its family, a command word by its op, and form CS by its range. -/
theorem decodeOfEncode : Obligations.DecodeOfEncode := by
  unfold Obligations.DecodeOfEncode
  intro i hi
  cases i with
  | rxData d => exact congrArg Except.ok (decodeByte_dataByteOf d)
  | rxNoteOff ch | rxNoteOn ch | rxPolyAftertouch ch | rxControlChange ch | rxProgramChange ch
  | rxChannelAftertouch ch | rxPitchWheel ch => simp [encode, decode, decodeByte_statusByteOf]
  | rxSysexStart | rxScF1 | rxScF2 | rxScF3 | rxScF4 | rxScF5 | rxTuneRequest | rxSysexEnd
  | rxRtTimingClock | rxRtF9 | rxRtStart | rxRtContinue | rxRtStop | rxRtFd | rxRtActiveSensing | rxRtReset => rfl
  | noteOff | noteOn | controlChange | channelAftertouch | pitchWheel | modWheel
  | rtTimingClock | rtStart | rtContinue | rtStop | rtActiveSensing | rtReset => simp [encode, decode, decodeCommand]
  | pitchWheelSigned ch sv => simp [encode, decode, decodeCommand, toInt_ofInt_of_fitsSigned16 hi]

theorem encode_decodeByte : ∀ b : Byte, encode (decodeByte b) = .rx b := by decide

theorem wellFormed_decodeByte : ∀ b : Byte, (decodeByte b).wellFormed = true := by decide

theorem fitsSigned16_toInt (p : Word16) : fitsSigned16 p.toInt = true :=
  decide_eq_true ⟨p.le_toInt, Int.le_of_lt_add_one p.toInt_lt⟩

theorem encode_of_decodeCommand {w : Word24} {i : Instr} (h : decodeCommand w = .ok i) : encode i = .cmd w := by
  revert h
  fun_cases decodeCommand w <;> rintro ⟨⟩
  all_goals
    rename_i hop
    simpa only [encode, hiByte_append_loByte, BitVec.ofInt_toInt] using
      congrArg Encoded.cmd (commandWord_of_opOf hop)

/-- Form CS, the sixth branch, is the one with a range to meet. -/
theorem wellFormed_of_decodeCommand {w : Word24} {i : Instr} (h : decodeCommand w = .ok i) : i.wellFormed = true := by
  revert h
  fun_cases decodeCommand w <;> rintro ⟨⟩
  case case6 => exact fitsSigned16_toInt _
  all_goals rfl

/-- Settles O3: for the 256 bytes by computation, for a word by the branch of `decodeCommand` it takes. -/
theorem encodeOfDecode : Obligations.EncodeOfDecode := by
  unfold Obligations.EncodeOfDecode
  intro e i h
  cases e with
  | rx b =>
    obtain rfl := Except.ok.inj h
    exact ⟨wellFormed_decodeByte b, encode_decodeByte b⟩
  | cmd w => exact ⟨wellFormed_of_decodeCommand h, encode_of_decodeCommand h⟩

/-! ## Reserved op codes (rule R74) -/

theorem decodeCommand_reserved {w : Word24} (h : opOf w = 0x2#4 ∨ opOf w = 0x4#4 ∨ opOf w = 0xD#4) :
    decodeCommand w = .error (.reservedCommandOp (opOf w)) := by
  rcases h with h | h | h <;> simp [decodeCommand, h]

/-- The thirteen ops of rule R73 and the three reserved ones are all there are. -/
theorem decodeCommand_isOk {w : Word24} (h : ¬(opOf w = 0x2#4 ∨ opOf w = 0x4#4 ∨ opOf w = 0xD#4)) :
    ∃ i, decodeCommand w = .ok i := by
  have hother : ∀ op : BitVec 4, ¬(op = 0x2#4 ∨ op = 0x4#4 ∨ op = 0xD#4) →
      op ∈ [0x0#4, 0x1#4, 0x3#4, 0x5#4, 0x6#4, 0x7#4, 0x8#4, 0x9#4, 0xA#4, 0xB#4, 0xC#4, 0xE#4, 0xF#4] := by decide
  have hop := hother _ h
  simp only [List.mem_cons, List.not_mem_nil, or_false] at hop
  rcases hop with hop | hop | hop | hop | hop | hop | hop | hop | hop | hop | hop | hop | hop <;>
    simp [decodeCommand, hop]

theorem exec_isNext (i : Instr) (s : State) : ∃ t, exec i s = .next t := by
  rcases exec_uniform i with ⟨_, h⟩ | ⟨_, h⟩ | ⟨_, h⟩ | ⟨_, _, _, h⟩ | ⟨_, _, h⟩ | ⟨_, h⟩ <;> exact ⟨_, h s⟩

/-- Settles O5: the decoder rejects a reserved op by name, and `exec` refuses no instruction. -/
theorem reservedOpsRefused : Obligations.ReservedOpsRefused := by
  unfold Obligations.ReservedOpsRefused
  intro w s
  split
  next h => exact encStep_error (decodeCommand_reserved h) s
  next h =>
    obtain ⟨i, hi⟩ := decodeCommand_isOk h
    obtain ⟨t, ht⟩ := exec_isNext i s
    exact ⟨i, t, hi, encStep_ok hi s, ht⟩

/-! ## The event encoding (rule R75) -/

theorem Event.toWord_kind_le_five (e : Event) : e.toWord.kind ≤ 5#3 := by
  cases e <;> simp [Event.toWord]

theorem Event.realtime_le_x_of_kind_five {e : Event} (hl : e.legal = true) (hk : e.toWord.kind = 5#3) :
    0xF8#8 ≤ e.toWord.x := by
  cases e with
  | realtime b => exact of_decide_eq_true hl
  | none | noteOn | noteOff | controlChange | pitchWheel => simp [Event.toWord] at hk

theorem State.dataByte_ev_legal (s : State) (d : Data) : (s.dataByte d).ev.legal = true := by
  rcases s.dataByte_cases d with ⟨_, h⟩ | ⟨_, _, h⟩ | ⟨_, _, _, h⟩ | ⟨_, _, _, h⟩ | ⟨_, _, _, h⟩ | ⟨_, _, _, h⟩ <;> rw [h]
  case inl => exact secondEvent_legal _ _ _
  all_goals rfl

/-- Whatever state a decoder step starts in, the event it drives is one the port may carry. -/
theorem decStep_ev_legal {r : Option Byte} {s t : State} (h : decStep r s = .next t) : t.ev.legal = true := by
  cases r with
  | none =>
    obtain rfl := Host.Outcome.next.inj h
    rfl
  | some b =>
    rcases decStep_byte_cases b s with ⟨_, k⟩ | ⟨_, _, k⟩ | ⟨hb, k⟩ <;>
      obtain rfl := Host.Outcome.next.inj (k.symm.trans h)
    · exact s.dataByte_ev_legal _
    · rfl
    · exact decide_eq_true hb

/-- Settles O7: the rows as `Event.toWord` has them; only a realtime event has kind 5, and the decoder drives it with a
realtime byte alone. -/
theorem eventEncoding : Obligations.EventEncoding := by
  unfold Obligations.EventEncoding
  exact ⟨rfl, fun _ _ => ⟨rfl, rfl, rfl, rfl⟩, fun _ => rfl, Event.toWord_kind_le_five,
    fun _ _ _ h hk => Event.realtime_le_x_of_kind_five (decStep_ev_legal h) hk⟩

/-! ## The halves of a 14-bit value (rule R69, 40_encoder.md rule R107) -/

theorem dataByteOf_le (d : Data) : dataByteOf d ≤ 0x7F#8 := by
  have h := dataByteOf_lt d
  bv_omega

theorem toNat_append_eq_add {m n : Nat} (x : BitVec m) (y : BitVec n) :
    (x ++ y).toNat = x.toNat * 2 ^ n + y.toNat := by
  rw [BitVec.toNat_append, ← Nat.shiftLeft_add_eq_or_of_lt y.isLt, Nat.shiftLeft_eq]

theorem composite_eq_append (lsb msb : Data) : composite lsb msb = msb ++ lsb := by
  apply BitVec.eq_of_getLsbD_eq
  intro i hi
  simp only [composite, BitVec.getLsbD_or, BitVec.getLsbD_setWidth, BitVec.getLsbD_shiftLeft, BitVec.getLsbD_append]
  by_cases h : i < 7
  · simp [h, hi]
  · have hlsb : lsb.getLsbD i = false := BitVec.getLsbD_of_ge lsb i (Nat.le_of_not_lt h)
    have hmsb : i - 7 < 14 := by omega
    simp [h, hi, hlsb, hmsb]

theorem composite_toNat (lsb msb : Data) : (composite lsb msb).toNat = lsb.toNat + 128 * msb.toNat := by
  rw [composite_eq_append, toNat_append_eq_add]
  omega

theorem composite_extractLsb' (v : Word16) : composite (v.extractLsb' 0 7) (v.extractLsb' 7 7) = v.setWidth 14 := by
  rw [composite_eq_append, BitVec.setWidth_eq_extractLsb' (by decide)]
  exact BitVec.extractLsb'_append_extractLsb'_eq_extractLsb' rfl

theorem extractLsb'_composite_low (lsb msb : Data) : ((composite lsb msb).setWidth 16).extractLsb' 0 7 = lsb := by
  apply BitVec.eq_of_toNat_eq
  rw [BitVec.extractLsb'_toNat, BitVec.toNat_setWidth, composite_toNat]
  omega

theorem extractLsb'_composite_high (lsb msb : Data) : ((composite lsb msb).setWidth 16).extractLsb' 7 7 = msb := by
  apply BitVec.eq_of_toNat_eq
  rw [BitVec.extractLsb'_toNat, BitVec.toNat_setWidth, composite_toNat]
  omega

/-- Rule R148: under the pitch-wheel family two data bytes are one event with its halves as they came. -/
theorem feedBytes_pitchWheel (d : State) (lsb msb : Data) (hrxs : d.rxs = 0xE0#8) (hpend : d.pend = false) :
    ∃ u, feedBytes [dataByteOf lsb, dataByteOf msb] d = .next u ∧ u.evLog = d.evLog ++ [.pitchWheel lsb msb] := by
  refine ⟨_, feedBytes_two d lsb msb hpend (by rw [hrxs]; decide), ?_⟩
  simp [hrxs, secondEvent]

/-- Settles O8: the bytes sent are the 7-bit fields of `v`, and `composite` is the sum of its halves, the high one
times 128. -/
theorem compositeHalves : Obligations.CompositeHalves := by
  unfold Obligations.CompositeHalves
  refine ⟨fun v => ?_, fun lsb msb => ?_, fun s ch v => ⟨?_, ?_⟩, fun d v hrxs hpend => ?_⟩
  · rw [lsbOf_eq, msbOf_eq, dataByteOf_setWidth, dataByteOf_setWidth]
    exact ⟨dataByteOf_le _, dataByteOf_le _, composite_extractLsb' v⟩
  · rw [lsbOf_eq, msbOf_eq, extractLsb'_composite_low, extractLsb'_composite_high]
    exact ⟨rfl, rfl, composite_toNat lsb msb⟩
  · exact congrArg Host.Outcome.next (s.sendMessage_eq 0xE0#8 ch _)
  · exact congrArg Host.Outcome.next (s.sendModWheel_eq ch v)
  · rw [lsbOf_eq, msbOf_eq]
    obtain ⟨u, hfeed, hlog⟩ := feedBytes_pitchWheel d (v.extractLsb' 0 7) (v.extractLsb' 7 7) hrxs hpend
    exact ⟨u, _, _, hfeed, hlog, composite_extractLsb' v⟩

/-! ## Assembled words (rule R78) -/

theorem commandWord_toNat (op : BitVec 4) (ch : Chan) (p : Word16) :
    (commandWord op ch p).toNat = op.toNat * 2 ^ 20 + ch.toNat * 2 ^ 16 + p.toNat := by
  rw [commandWord, toNat_append_eq_add, toNat_append_eq_add, Nat.add_assoc]

theorem commandWord_ofNat_toNat (op : BitVec 4) {ch p : Nat} (hch : ch < 16) (hp : p < 65536) :
    (commandWord op (BitVec.ofNat 4 ch) (BitVec.ofNat 16 p)).toNat = op.toNat * 2 ^ 20 + ch * 2 ^ 16 + p := by
  rw [commandWord_toNat, BitVec.toNat_ofNat, BitVec.toNat_ofNat, Nat.mod_eq_of_lt hch, Nat.mod_eq_of_lt hp]

/-- Settles O9: each form is a command word of operands that fit its fields. -/
theorem assembledWords : Obligations.AssembledWords := by
  unfold Obligations.AssembledWords
  intro op ch a b v sv hch ha hb hv _ _
  refine ⟨congrArg some ?_, congrArg some ?_, congrArg some ?_, congrArg some ?_, congrArg some ?_⟩
  · have hp : a <<< 8 ||| b = a * 2 ^ 8 + b := by
      rw [← Nat.shiftLeft_add_eq_or_of_lt (i := 8) hb, Nat.shiftLeft_eq]
    rw [hp]
    exact commandWord_ofNat_toNat op hch (by omega)
  · exact commandWord_ofNat_toNat op hch (by omega)
  · exact commandWord_ofNat_toNat op hch hv
  · rw [commandWord_toNat, BitVec.toNat_ofNat, BitVec.toNat_ofInt, Nat.mod_eq_of_lt hch]
    rfl
  · exact (commandWord_toNat op 0x0#4 0x0000#16).trans (by simp)

/-! ## The pseudo-instructions (rule R80) -/

/-- The second of two messages of one status byte elides it (40_encoder.md rule R101), so together they are one message
of all the data. -/
theorem State.afterSend_afterSend (s : State) (st : Byte) (data data' : List Byte) :
    { (s.afterSend st data).afterSend st data' with
      txOut := (s.afterSend st data).txOut ++ ((s.afterSend st data).afterSend st data').txOut } =
    s.afterSend st (data ++ data') := by
  simp [State.afterSend]

/-- A control change of 7-bit operands sends them as they are. -/
theorem exec_controlChange_setWidth (s : State) (ch : Chan) (ctl val : Data) :
    exec (.controlChange ch (ctl.setWidth 8) (val.setWidth 8)) s =
      .next (s.afterSend (statusByteOf 0xB0#8 ch) [dataByteOf ctl, dataByteOf val]) := by
  rw [← mask7_dataByteOf ctl, ← mask7_dataByteOf val]
  exact congrArg Host.Outcome.next (s.sendMessage_eq 0xB0#8 ch _)

/-- Settles O45: PITCH_WHEEL_SIGNED by definition; MOD_WHEEL by what two sends under one status byte amount to. -/
theorem pseudoInstructions : Obligations.PseudoInstructions := by
  unfold Obligations.PseudoInstructions
  refine ⟨fun _ _ _ => rfl, fun s ch v => ⟨_, _, exec_controlChange_setWidth s ch _ _,
    exec_controlChange_setWidth _ ch _ _, congrArg Host.Outcome.next ?_⟩⟩
  rw [State.afterSend_afterSend, State.sendModWheel_eq, lsbOf_eq, msbOf_eq]
  rfl

/-! ## Words and bytes of the opcode maps -/

/-- Settles O1, each word by running the decoder. -/
theorem specEncodingsDecode : Obligations.SpecEncodingsDecode := by
  unfold Obligations.SpecEncodingsDecode
  decide

theorem rxRows_filter_eq : ∀ b : Byte, rxRows.filter (fun r => b.toNat &&& r.2 == r.1) =
    [((decodeByte b).tableRow.2.1, (decodeByte b).tableRow.2.2)] := by decide

/-- Of a status byte, a state keeps the family alone. -/
theorem State.statusByte_congr (s : State) {b b' : Byte} (h : famOf b = famOf b') : s.statusByte b = s.statusByte b' := by
  rw [State.statusByte_eq, State.statusByte_eq, h]

/-- Settles O4: the rows by computation on the 256 bytes; the channel by `famOf`, which drops it. -/
theorem byteOpcodeMap : Obligations.ByteOpcodeMap := by
  unfold Obligations.ByteOpcodeMap
  refine ⟨rxRows_filter_eq, fun c c' s => ⟨?_, ?_, ?_, ?_, ?_, ?_, ?_⟩⟩ <;>
    exact congrArg Host.Outcome.next (s.statusByte_congr (by simp))

theorem classOf_iff : ∀ b : Byte,
    (classOf b = .data ↔ b ≤ 0x7F#8) ∧ (classOf b = .channel ↔ 0x80#8 ≤ b ∧ b ≤ 0xEF#8) ∧
    (classOf b = .sysCommon ↔ 0xF0#8 ≤ b ∧ b ≤ 0xF7#8) ∧ (classOf b = .realtime ↔ 0xF8#8 ≤ b) := by decide

/-- Settles O6: the classes by computation on the 256 bytes; every decoder step answers a next state. -/
theorem byteClasses : Obligations.ByteClasses := by
  unfold Obligations.ByteClasses
  intro b
  obtain ⟨hdata, hchannel, hsys, hrt⟩ := classOf_iff b
  exact ⟨hdata, hchannel, hsys, hrt, fun s => decStep_isNext (some b) s⟩

end Sys2Proof.Machine

namespace Sys2Proof.Machine

/-! ## The words of the commands (30_encoding.md rule R72, rule R73) -/

/-- A command word decodes to the well-formed instruction it encodes: `decodeOfEncode`, on the command port. -/
theorem decodeCommand_of_encode {i : Instr} {w : Word24} (hi : i.wellFormed = true) (hw : encode i = .cmd w) :
    decodeCommand w = .ok i := by
  have h := decodeOfEncode i hi
  rwa [hw] at h

/-! ## What each command does (40_encoder.md rule R103 to rule R116) -/

theorem exec_noteOff (ch : Chan) (key vel : Byte) (s : State) :
    exec (.noteOff ch key vel) s = .next (s.afterSend (statusByteOf 0x80#8 ch) [mask7 key, mask7 vel]) :=
  congrArg Host.Outcome.next (s.sendMessage_eq 0x80#8 ch _)

theorem exec_noteOn (ch : Chan) (key vel : Byte) (s : State) :
    exec (.noteOn ch key vel) s = .next (s.afterSend (statusByteOf 0x90#8 ch) [mask7 key, mask7 vel]) :=
  congrArg Host.Outcome.next (s.sendMessage_eq 0x90#8 ch _)

theorem exec_controlChange (ch : Chan) (ctl val : Byte) (s : State) :
    exec (.controlChange ch ctl val) s = .next (s.afterSend (statusByteOf 0xB0#8 ch) [mask7 ctl, mask7 val]) :=
  congrArg Host.Outcome.next (s.sendMessage_eq 0xB0#8 ch _)

theorem exec_channelAftertouch (ch : Chan) (ignored pressure : Byte) (s : State) :
    exec (.channelAftertouch ch ignored pressure) s = .next (s.afterSend (statusByteOf 0xD0#8 ch) [mask7 pressure]) :=
  congrArg Host.Outcome.next (s.sendMessage_eq 0xD0#8 ch _)

theorem exec_pitchWheel (ch : Chan) (v : Word16) (s : State) :
    exec (.pitchWheel ch v) s = .next (s.afterSend (statusByteOf 0xE0#8 ch) [lsbOf v, msbOf v]) :=
  congrArg Host.Outcome.next (s.sendMessage_eq 0xE0#8 ch _)

/-- Rule R108: PITCH_WHEEL_SIGNED delegates to PITCH_WHEEL. -/
theorem exec_pitchWheelSigned (ch : Chan) (sv : Int) (s : State) :
    exec (.pitchWheelSigned ch sv) s = exec (.pitchWheel ch (recentre sv)) s := rfl

theorem exec_modWheel (ch : Chan) (v : Word16) (s : State) :
    exec (.modWheel ch v) s = .next (s.afterSend (statusByteOf 0xB0#8 ch)
      [dataByteOf s.cfg.modLsbCc, lsbOf v, dataByteOf s.cfg.modMsbCc, msbOf v]) :=
  congrArg Host.Outcome.next (s.sendModWheel_eq ch v)

theorem exec_of_txRealtime {i : Instr} {b : Byte} (h : i.txRealtime = some b) (s : State) :
    exec i s = .next (s.sendRealtime b) := by
  cases i with
  | rtTimingClock | rtStart | rtContinue | rtStop | rtActiveSensing | rtReset =>
    obtain rfl := Option.some.inj h
    rfl
  | _ => cases h

theorem isRx_eq_false_of_txStatus {i : Instr} {st : Byte} (h : i.txStatus = some st) : i.isRx = false := by
  cases i with
  | noteOff | noteOn | controlChange | channelAftertouch | pitchWheel | pitchWheelSigned | modWheel => rfl
  | _ => cases h

/-- A channel command sends its status byte with as many data bytes as rule R119 says. -/
theorem exec_of_txStatus {i : Instr} {st : Byte} (h : i.txStatus = some st) (s : State) :
    ∃ data, data.length = i.txDataLength ∧ (∀ x ∈ data, x < 0x80#8) ∧ exec i s = .next (s.afterSend st data) := by
  have hrx := isRx_eq_false_of_txStatus h
  rcases exec_cases i s with ⟨_, rfl, _⟩ | ⟨_, _, _, hc, _⟩ | ⟨_, _, hc, _⟩ | ⟨st', data, hst, hlen, hdata, _, k⟩ |
    ⟨_, hb, _⟩
  · cases hrx
  · simp [isRx_of_encode_rx hc] at hrx
  · simp [isRx_of_encode_rx hc] at hrx
  · obtain rfl := Option.some.inj (hst.symm.trans h)
    exact ⟨data, hlen, hdata, k⟩
  · simp [txStatus_of_txRealtime hb] at h

@[simp] theorem State.afterSend_txs (s : State) (st : Byte) (data : List Byte) : (s.afterSend st data).txs = st := rfl

@[simp] theorem State.afterSend_txOut (s : State) (st : Byte) (data : List Byte) :
    (s.afterSend st data).txOut = (if s.txs = st then [] else [st]) ++ data := rfl

@[simp] theorem State.sendRealtime_txs (s : State) (b : Byte) : (s.sendRealtime b).txs = s.txs := rfl

@[simp] theorem State.sendRealtime_txOut (s : State) (b : Byte) : (s.sendRealtime b).txOut = [b] := rfl

/-! ## The commands of two data bytes, channel aftertouch and the realtime commands -/

/-- Settles O40: each word is its command's encoding, and `mask7` is the mask the statement writes out. -/
theorem twoByteCommands : Obligations.TwoByteCommands := by
  unfold Obligations.TwoByteCommands
  intro s ch a b
  exact ⟨⟨decodeCommand_of_encode rfl rfl, decodeCommand_of_encode rfl rfl, decodeCommand_of_encode rfl rfl⟩,
    exec_noteOff ch a b s, exec_noteOn ch a b s, exec_controlChange ch a b s⟩

/-- Settles O41: the word is the command's encoding, and its meaning does not look at `p[15:8]`. -/
theorem channelAftertouchCommand : Obligations.ChannelAftertouchCommand := by
  unfold Obligations.ChannelAftertouchCommand
  intro s ch ignored pressure
  exact ⟨decodeCommand_of_encode rfl rfl, exec_channelAftertouch ch ignored pressure s⟩

/-- Settles O46: each word is its command's encoding, and each command is one `sendRealtime`. -/
theorem realtimeCommands : Obligations.RealtimeCommands := by
  unfold Obligations.RealtimeCommands
  intro s ch p
  refine ⟨⟨?_, ?_, ?_, ?_, ?_, ?_⟩, ?_, ?_, ?_, ?_, ?_, ?_⟩
  iterate 6 exact decodeCommand_of_encode rfl rfl
  all_goals exact exec_of_txRealtime rfl s

/-! ## The pitch-wheel and mod-wheel values on the wire (rule R107 to rule R109) -/

theorem lsbOf_eq_ofNat (v : Word16) : lsbOf v = BitVec.ofNat 8 (v.toNat % 16384 % 128) := by
  apply BitVec.eq_of_toNat_eq
  rw [lsbOf_eq, dataByteOf, BitVec.toNat_setWidth, BitVec.extractLsb'_toNat, BitVec.toNat_ofNat]
  omega

theorem msbOf_eq_ofNat (v : Word16) : msbOf v = BitVec.ofNat 8 (v.toNat % 16384 / 128) := by
  apply BitVec.eq_of_toNat_eq
  rw [msbOf_eq, dataByteOf, BitVec.toNat_setWidth, BitVec.extractLsb'_toNat, BitVec.toNat_ofNat]
  omega

/-- Settles O42: the two halves are the remainder and the quotient of `v mod 16384` by 128. -/
theorem pitchWheelCommand : Obligations.PitchWheelCommand := by
  unfold Obligations.PitchWheelCommand
  intro s ch v
  rw [← lsbOf_eq_ofNat, ← msbOf_eq_ofNat]
  exact ⟨decodeCommand_of_encode rfl rfl, exec_pitchWheel ch v s⟩

theorem recentre_toNat (sv : Int) : (recentre sv).toNat = ((sv + 8192) % 65536).toNat :=
  BitVec.toNat_ofInt (sv + 8192)

theorem recentre_eq_ofNat (sv : Int) : recentre sv = BitVec.ofNat 16 ((sv + 8192) % 65536).toNat := by
  rw [← recentre_toNat, BitVec.ofNat_toNat, BitVec.setWidth_eq]

/-- The wire drops bits 15..14, and 16384 divides 2^16. -/
theorem recentre_toNat_mod (sv : Int) : (recentre sv).toNat % 16384 = ((sv + 8192) % 16384).toNat := by
  rw [recentre_toNat]
  omega

/-- Settles O43: PITCH_WHEEL of `recentre sv`, which is `sv + 8192` modulo 2^16. -/
theorem pitchWheelSignedCommand : Obligations.PitchWheelSignedCommand := by
  unfold Obligations.PitchWheelSignedCommand
  intro s ch sv
  refine ⟨fun p => decodeCommand_of_encode (fitsSigned16_toInt p) ?_, ?_, ?_⟩
  · rw [encode, BitVec.ofInt_toInt]
    rfl
  · rw [← recentre_eq_ofNat]
    rfl
  · rw [← recentre_toNat_mod, ← lsbOf_eq_ofNat, ← msbOf_eq_ofNat, exec_pitchWheelSigned]
    exact exec_pitchWheel ch _ s

/-- Settles O44: two sends under one status byte are one, whatever the controllers. -/
theorem modWheelCommand : Obligations.ModWheelCommand := by
  unfold Obligations.ModWheelCommand
  intro s ch v
  rw [← lsbOf_eq_ofNat, ← msbOf_eq_ofNat]
  exact ⟨decodeCommand_of_encode rfl rfl, exec_modWheel ch v s⟩

/-! ## Output lengths and elision (rule R119, rule R121) -/

/-- Settles O48: the data bytes by `exec_of_txStatus`, and the status byte where `TXS` differs from it. -/
theorem outputLengths : Obligations.OutputLengths := by
  unfold Obligations.OutputLengths
  intro i s t ht
  constructor
  · intro st hst
    obtain ⟨data, hlen, _, k⟩ := exec_of_txStatus hst s
    obtain rfl := Host.Outcome.next.inj (k.symm.trans ht)
    by_cases h : s.txs = st <;> simp [h, hlen]
  · intro b hb
    obtain rfl := Host.Outcome.next.inj ((exec_of_txRealtime hb s).symm.trans ht)
    rfl

/-- Realtime commands complete and keep `TXS` (rule R110). -/
theorem runInstrs_realtime (rts : List Instr) (s : State) (h : ∀ r ∈ rts, r.txRealtime.isSome = true) :
    ∃ t, runInstrs rts s = .next t ∧ t.txs = s.txs := by
  induction rts generalizing s with
  | nil => exact ⟨s, rfl, rfl⟩
  | cons r rts ih =>
    obtain ⟨hr, hrts⟩ := List.forall_mem_cons.mp h
    obtain ⟨b, hb⟩ := Option.isSome_iff_exists.mp hr
    obtain ⟨t, ht, htxs⟩ := ih (s.sendRealtime b) hrts
    exact ⟨t, (runAll_cons exec r rts s _ (exec_of_txRealtime hb s)).trans ht, htxs⟩

/-- Settles O49: the first command leaves its status byte in `TXS`, the realtime commands keep it there, and the second
compares its own with it. -/
theorem elisionLaws : Obligations.ElisionLaws := by
  unfold Obligations.ElisionLaws
  intro i j rts st st' s hi hj hrts
  obtain ⟨_, _, _, hfirst⟩ := exec_of_txStatus hi s
  obtain ⟨t, ht, htxs⟩ := runInstrs_realtime rts (s.afterSend st _) hrts
  obtain ⟨data, hlen, hdata, hsecond⟩ := exec_of_txStatus hj t
  have hle : ∀ x ∈ data, x ≤ 0x7F#8 := fun x hx => by
    have hlt := hdata x hx
    bv_omega
  rw [State.afterSend_txs] at htxs
  refine ⟨t, _, (runAll_cons exec i rts s _ hfirst).trans ht, hsecond, fun heq => ?_, fun hne => ⟨data, ?_, hlen, hle⟩⟩
  · have hout : (t.afterSend st' data).txOut = data := by simp [htxs, heq]
    rw [hout]
    exact ⟨hlen, hle⟩
  · simp [htxs, hne]

/-! ## Steps and completion (rule R100, rule R118, rule R130) -/

/-- Settles O10: a turn takes the head of its unit's port, and the unit runs what that decodes to. -/
theorem stepRunsDecoded : Obligations.StepRunsDecoded := by
  unfold Obligations.StepRunsDecoded
  constructor
  · intro s ts b q hturns hrx
    exact step_decoder_cons s ts (some b) q hturns hrx
  · intro s ts w q i hturns hcmd hi
    exact (step_encoder_cons s ts (some w) q hturns hcmd).trans (encStep_ok hi _)

/-- Settles O16: every instruction is one total operation on the state. -/
theorem everyInstructionCompletes : Obligations.EveryInstructionCompletes := by
  unfold Obligations.EveryInstructionCompletes
  exact exec_isNext

/-! ## Loopback (95_test_vectors.md PR5) -/

/-- The decoder stands between messages, with the family of the encoder's `TXS` as its running status: a status byte the
encoder elides is the one the decoder holds. -/
structure InStep (enc dec : State) : Prop where
  rxs_eq : dec.rxs = famOf enc.txs
  pend_eq : dec.pend = false

theorem inStep_reset : InStep State.reset State.reset := ⟨by decide, rfl⟩

/-- Sent or elided, the status byte leaves the decoder with its family and nothing signalled. -/
theorem InStep.feedBytes_status {enc dec : State} (h : InStep enc dec) {st : Byte} (hst : isChannelStatus st = true) :
    ∃ u, feedBytes (if enc.txs = st then [] else [st]) dec = .next u ∧ u.rxs = famOf st ∧ u.pend = false ∧
      u.evLog = dec.evLog := by
  split
  next he => exact ⟨dec, rfl, he ▸ h.rxs_eq, h.pend_eq, rfl⟩
  next =>
    obtain ⟨hlo, hhi⟩ := (isChannelStatus_iff st).mp hst
    have hdec := decStep_status st dec hlo (by bv_omega)
    exact ⟨_, feed_cons (some st) [] dec _ hdec, rfl, rfl, rfl⟩

/-- A message of two data bytes reaches a decoder in step as its family's event. -/
theorem InStep.feedBytes_afterSend {enc dec : State} (h : InStep enc dec) {st : Byte} {n v : Data}
    (hst : isChannelStatus st = true) (hfam : famOf st ∈ twoByteFamilies) :
    ∃ u, feedBytes (enc.afterSend st [dataByteOf n, dataByteOf v]).txOut dec = .next u ∧
      u.evLog = dec.evLog ++ (secondEvent (famOf st) n v).logged ∧
      InStep (enc.afterSend st [dataByteOf n, dataByteOf v]) u := by
  obtain ⟨d, hd, hrxs, hpend, hlog⟩ := h.feedBytes_status hst
  rw [State.afterSend_txOut, feedBytes_append _ _ dec d hd, feedBytes_two d n v hpend (hrxs ▸ hfam), hrxs, hlog]
  exact ⟨_, rfl, rfl, rfl, rfl⟩

/-- A realtime byte passes between messages without disturbing them (41_decoder.md rule R132). -/
theorem InStep.feedBytes_sendRealtime {enc dec : State} (h : InStep enc dec) {b : Byte} (hb : 0xF8#8 ≤ b) :
    ∃ u, feedBytes (enc.sendRealtime b).txOut dec = .next u ∧ u.evLog = dec.evLog ++ [.realtime b] ∧
      InStep (enc.sendRealtime b) u :=
  ⟨_, feed_cons (some b) [] dec _ (decStep_realtime b dec hb), rfl, h.rxs_eq, h.pend_eq⟩

/-- A command with an event sends a message of two data bytes that signals it, or a realtime byte. -/
theorem exec_of_loopEvent {i : Instr} {e : Event} (h : i.loopEvent = some e) :
    (∃ st n v, i.txStatus = some st ∧ famOf st ∈ twoByteFamilies ∧ (secondEvent (famOf st) n v).logged = [e] ∧
      ∀ s, exec i s = .next (s.afterSend st [dataByteOf n, dataByteOf v])) ∨
    (∃ b, e = .realtime b ∧ 0xF8#8 ≤ b ∧ ∀ s, exec i s = .next (s.sendRealtime b)) := by
  cases i with
  | noteOff ch key vel =>
    obtain rfl := Option.some.inj h
    refine .inl ⟨_, key.setWidth 7, vel.setWidth 7, rfl, by simp [twoByteFamilies], by simp [secondEvent], fun s => ?_⟩
    rw [exec_noteOff, mask7_eq, mask7_eq]
  | noteOn ch key vel =>
    obtain rfl := Option.some.inj h
    refine .inl ⟨_, key.setWidth 7, vel.setWidth 7, rfl, by simp [twoByteFamilies], ?_, fun s => ?_⟩
    · by_cases hv : vel.setWidth 7 = 0x00#7 <;> simp [secondEvent, hv]
    · rw [exec_noteOn, mask7_eq, mask7_eq]
  | controlChange ch ctl val =>
    obtain rfl := Option.some.inj h
    refine .inl ⟨_, ctl.setWidth 7, val.setWidth 7, rfl, by simp [twoByteFamilies], by simp [secondEvent], fun s => ?_⟩
    rw [exec_controlChange, mask7_eq, mask7_eq]
  | pitchWheel ch v =>
    obtain rfl := Option.some.inj h
    refine .inl ⟨_, v.extractLsb' 0 7, v.extractLsb' 7 7, rfl, by simp [twoByteFamilies], by simp [secondEvent],
      fun s => ?_⟩
    rw [exec_pitchWheel, lsbOf_eq, msbOf_eq]
  | pitchWheelSigned ch sv =>
    obtain rfl := Option.some.inj h
    refine .inl ⟨_, (recentre sv).extractLsb' 0 7, (recentre sv).extractLsb' 7 7, rfl, by simp [twoByteFamilies],
      by simp [secondEvent], fun s => ?_⟩
    rw [exec_pitchWheelSigned, exec_pitchWheel, lsbOf_eq, msbOf_eq]
  | rtTimingClock | rtStart | rtContinue | rtStop | rtActiveSensing | rtReset =>
    obtain rfl := Option.some.inj h
    exact .inr ⟨_, rfl, by decide, fun _ => rfl⟩
  | _ => cases h

/-- One command's bytes are its one event at the decoder, and the two stay in step. -/
theorem InStep.exec_then_feedBytes {enc dec : State} (h : InStep enc dec) {i : Instr} {e : Event} (hi : i.loopEvent = some e) :
    ∃ t u, exec i enc = .next t ∧ t.txLog = enc.txLog ++ t.txOut ∧ feedBytes t.txOut dec = .next u ∧
      u.evLog = dec.evLog ++ [e] ∧ InStep t u := by
  rcases exec_of_loopEvent hi with ⟨st, n, v, hst, hfam, he, hexec⟩ | ⟨b, rfl, hb, hexec⟩
  · obtain ⟨u, hfeed, hlog, hin⟩ := h.feedBytes_afterSend (isChannelStatus_txStatus i st hst) hfam
    exact ⟨_, u, hexec enc, List.append_assoc _ _ _, hfeed, hlog.trans (he ▸ rfl), hin⟩
  · obtain ⟨u, hfeed, hlog, hin⟩ := h.feedBytes_sendRealtime hb
    exact ⟨_, u, hexec enc, rfl, hfeed, hlog, hin⟩

/-- From any encoder and decoder in step, the bytes `bs` that the commands add to the stream are their events. -/
theorem InStep.runInstrs_then_feedBytes {enc dec : State} (h : InStep enc dec) (commands : List Instr)
    (hc : ∀ i ∈ commands, i.loopEvent.isSome = true) :
    ∃ t u bs, runInstrs commands enc = .next t ∧ t.txLog = enc.txLog ++ bs ∧ feedBytes bs dec = .next u ∧
      u.evLog = dec.evLog ++ commands.filterMap Instr.loopEvent := by
  induction commands generalizing enc dec with
  | nil => exact ⟨enc, dec, [], rfl, by simp, rfl, by simp⟩
  | cons i rest ih =>
    obtain ⟨hi, hrest⟩ := List.forall_mem_cons.mp hc
    obtain ⟨e, he⟩ := Option.isSome_iff_exists.mp hi
    obtain ⟨t, u, hexec, htx, hfeed, hev, hin⟩ := h.exec_then_feedBytes he
    obtain ⟨t', u', bs, hrun, htx', hfeed', hev'⟩ := ih hin hrest
    refine ⟨t', u', t.txOut ++ bs, (runAll_cons exec i rest enc t hexec).trans hrun, ?_,
      (feedBytes_append _ _ dec u hfeed).trans hfeed', ?_⟩
    · rw [htx', htx, List.append_assoc]
    · rw [hev', hev, List.append_assoc, List.filterMap_cons_some he, List.singleton_append]

/-- Settles O59: `InStep` holds at reset and every command keeps it. -/
theorem loopback : Obligations.Loopback := by
  unfold Obligations.Loopback
  intro commands hc
  obtain ⟨t, u, bs, hrun, htx, hfeed, hev⟩ := inStep_reset.runInstrs_then_feedBytes commands hc
  have hbs : t.txLog = bs := htx
  exact ⟨t, u, hrun, hbs ▸ hfeed, hev⟩

end Sys2Proof.Machine

namespace Sys2Proof.Machine

/-! ## The statuses that have events (30_encoding.md rule R63) -/

/-- The families whose completed messages signal an event (rule R162). -/
abbrev eventFamilies : List Byte := [0x80#8, 0x90#8, 0xB0#8, 0xE0#8]

/-- A completing data byte signals a channel event under the four families that have one. -/
theorem secondEvent_isChannel (f : Byte) (d1 d : Data) :
    (secondEvent f d1 d).isChannel = true ↔ f ∈ eventFamilies := by
  unfold secondEvent
  split_ifs <;> simp_all [eventFamilies, Event.isChannel]

theorem secondEvent_eq_none {f : Byte} (hf : f ∉ eventFamilies) (d1 d : Data) :
    secondEvent f d1 d = .none := by
  simp only [eventFamilies, List.mem_cons, not_or] at hf
  simp [secondEvent, hf]

/-- Channel events are recorded. -/
theorem Event.logged_of_isChannel {e : Event} (h : e.isChannel = true) : e.logged = [e] := by
  rcases e.logged_eq with ⟨rfl, _⟩ | ⟨_, hl⟩
  · cases h
  · exact hl

/-! ## Status bytes and data bytes under a known running status (41_decoder.md rule R141, rule R157) -/

theorem decodeByte_of_encode {i : Instr} {b : Byte} (hi : i.wellFormed = true) (hb : encode i = .rx b) :
    decodeByte b = i := by
  have h := decodeOfEncode i hi
  rw [hb] at h
  exact Except.ok.inj h

theorem State.statusByte_of_famOf (s : State) {b f : Byte} (h : famOf b = f) :
    s.statusByte b = { s with rxs := f, pend := false, ev := .none } := h ▸ s.statusByte_eq b

/-- With nothing pending a data byte is a first one; a stray byte is a terminus under `NONE`, which it keeps. -/
theorem State.dataByte_of_not_pend (s : State) (d : Data) (hp : s.pend = false) : s.dataByte d = s.firstData d := by
  by_cases hr : s.rxs = NONE
  · rw [State.dataByte_stray s d hp hr, State.firstData_terminus s d (by rw [hr]; decide), ← hr]
  · exact State.dataByte_first s d hp hr

section
variable {s : State} {f : Byte} (d : Data) (hr : s.rxs = f)
include hr

theorem exec_rxData_twoBytes (hf : framingOf f = .twoBytes) (hp : s.pend = false) :
    exec (.rxData d) s = .next { s with d1 := d, pend := true, ev := .none } := by
  subst hr
  exact congrArg Host.Outcome.next ((s.dataByte_of_not_pend d hp).trans (s.firstData_twoBytes d hf))

theorem exec_rxData_oneByte (hf : framingOf f = .oneByte) (hp : s.pend = false) :
    exec (.rxData d) s = .next { s with d1 := d, ev := .none } := by
  subst hr
  exact congrArg Host.Outcome.next ((s.dataByte_of_not_pend d hp).trans (s.firstData_oneByte d hf))

theorem exec_rxData_quirk (hf : framingOf f = .quirk) (hp : s.pend = false) :
    exec (.rxData d) s = .next { s with d1 := d, rxs := NONE, pend := true, ev := .none } := by
  subst hr
  exact congrArg Host.Outcome.next ((s.dataByte_of_not_pend d hp).trans (s.firstData_quirk d hf))

theorem exec_rxData_terminus (hf : framingOf f = .terminus) (hp : s.pend = false) :
    exec (.rxData d) s = .next { s with rxs := NONE, ev := .none } := by
  subst hr
  exact congrArg Host.Outcome.next ((s.dataByte_of_not_pend d hp).trans (s.firstData_terminus d hf))

theorem exec_rxData_second {e : Event} (he : secondEvent f s.d1 d = e) (hp : s.pend = true) :
    exec (.rxData d) s = .next
      { s with rxs := secondStatus f, pend := false, ev := e, evLog := s.evLog ++ e.logged } := by
  subst hr he
  exact congrArg Host.Outcome.next ((s.dataByte_second d hp).trans ((s.setPend false).secondData_eq d))

/-- A message completed under a channel family, which stays the running status. -/
theorem exec_rxData_completes {e : Event} (hstay : secondStatus f = f) (he : secondEvent f s.d1 d = e)
    (hp : s.pend = true) :
    exec (.rxData d) s = .next { s with pend := false, ev := e, evLog := s.evLog ++ e.logged } := by
  rw [exec_rxData_second d hr he hp, hstay, ← hr]

theorem exec_rxData_completes_silently (hstay : secondStatus f = f) (he : f ∉ eventFamilies)
    (hp : s.pend = true) : exec (.rxData d) s = .next { s with pend := false, ev := .none } := by
  rw [exec_rxData_completes d hr hstay (secondEvent_eq_none he _ _) hp]
  simp

end

/-! ## The families, one by one -/

/-- Settles O18: `famOf` is the rule's `fam`. -/
theorem statusByteArrival : Obligations.StatusByteArrival := by
  unfold Obligations.StatusByteArrival
  intro b s hlo hhi
  exact decStep_status b s hlo hhi

/-- What a second data byte meets under a system-common value: no event, no family that stays, no armed `PEND`. -/
theorem systemCommon_second : ∀ f : Byte, 0xF0#8 ≤ f → f ≤ 0xF7#8 →
    f ∉ eventFamilies ∧ secondStatus f = NONE ∧ f ∉ pendRxs := by decide

/-- Settles O28: a system-common value has no event and is no family that stays, and `PEND` is never armed under it. -/
theorem secondUnderSystemCommon : Obligations.SecondUnderSystemCommon := by
  unfold Obligations.SecondUnderSystemCommon
  intro s d hlo hhi
  obtain ⟨hevent, hcleared, hpend⟩ := systemCommon_second s.rxs hlo hhi
  refine ⟨fun hp => ?_, fun hinv => Bool.eq_false_iff.mpr fun hp => hpend (hinv.pend_legal hp)⟩
  rw [exec_rxData_second d rfl (secondEvent_eq_none hevent _ _) hp, hcleared]
  simp

/-- Settles O17: a realtime byte is one `signal`. -/
theorem realtimeBytes : Obligations.RealtimeBytes := by
  unfold Obligations.RealtimeBytes
  refine ⟨fun s b hb => decStep_realtime b s hb, fun s => ⟨?_, ?_, ?_, ?_, ?_, ?_, ?_, ?_⟩⟩ <;>
    exact congrArg Host.Outcome.next (s.rtByte_eq _)

/-- Settles O19: the family of 0x80 takes two data bytes and stays. -/
theorem noteOffFamily : Obligations.NoteOffFamily := by
  unfold Obligations.NoteOffFamily
  intro s ch d
  exact ⟨decodeByte_of_encode rfl rfl, congrArg Host.Outcome.next (s.statusByte_of_famOf (famOf_statusByteOf_0x80 ch)),
    fun hr hp => exec_rxData_twoBytes d hr (by decide) hp,
    fun hr hp => exec_rxData_completes d hr (by decide) rfl hp⟩

/-- Settles O20: the family of 0x90 takes two data bytes and stays; the second one's value picks the event. -/
theorem noteOnFamily : Obligations.NoteOnFamily := by
  unfold Obligations.NoteOnFamily
  intro s ch d
  refine ⟨decodeByte_of_encode rfl rfl, congrArg Host.Outcome.next (s.statusByte_of_famOf (famOf_statusByteOf_0x90 ch)),
    fun hr hp => exec_rxData_twoBytes d hr (by decide) hp, fun hr hp hd => ?_,
    fun hr hp => exec_rxData_completes _ hr (by decide) rfl hp⟩
  have he : secondEvent 0x90#8 s.d1 d = .noteOn s.d1 d := by simp [secondEvent, hd]
  exact exec_rxData_completes d hr (by decide) he hp

/-- Settles O21: the family of 0xA0 is counted like the others and has no event. -/
theorem polyAftertouchFamily : Obligations.PolyAftertouchFamily := by
  unfold Obligations.PolyAftertouchFamily
  intro s ch d
  exact ⟨decodeByte_of_encode rfl rfl, congrArg Host.Outcome.next (s.statusByte_of_famOf (famOf_statusByteOf_0xA0 ch)),
    fun hr hp => exec_rxData_twoBytes d hr (by decide) hp,
    fun hr hp => exec_rxData_completes_silently d hr (by decide) (by decide) hp⟩

/-- Settles O22: the family of 0xB0 takes two data bytes and stays. -/
theorem controlChangeFamily : Obligations.ControlChangeFamily := by
  unfold Obligations.ControlChangeFamily
  intro s ch d
  exact ⟨decodeByte_of_encode rfl rfl, congrArg Host.Outcome.next (s.statusByte_of_famOf (famOf_statusByteOf_0xB0 ch)),
    fun hr hp => exec_rxData_twoBytes d hr (by decide) hp,
    fun hr hp => exec_rxData_completes d hr (by decide) rfl hp⟩

/-- Settles O24: the family of 0xE0 takes two data bytes and stays; its event holds them as they came. -/
theorem pitchWheelFamily : Obligations.PitchWheelFamily := by
  unfold Obligations.PitchWheelFamily
  intro s ch d
  exact ⟨decodeByte_of_encode rfl rfl, congrArg Host.Outcome.next (s.statusByte_of_famOf (famOf_statusByteOf_0xE0 ch)),
    fun hr hp => exec_rxData_twoBytes d hr (by decide) hp,
    fun hr hp => exec_rxData_completes d hr (by decide) rfl hp⟩

/-- The two families of one data byte (rule R63) are framed alike, stay the running status, have no event, and never arm
`PEND`. -/
theorem oneByte_framing : ∀ f : Byte, f = 0xC0#8 ∨ f = 0xD0#8 →
    framingOf f = .oneByte ∧ secondStatus f = f ∧ f ∉ eventFamilies ∧ f ∉ pendRxs := by decide

/-- Settles O23 (the obligation's own name is the model's list of families): the two families share their
framing, and `PEND` is never armed under them. -/
theorem oneByteFamilies_hold : Obligations.OneByteFamilies := by
  unfold Obligations.OneByteFamilies
  intro s ch d
  have hfacts := oneByte_framing s.rxs
  refine ⟨decodeByte_of_encode rfl rfl, decodeByte_of_encode rfl rfl,
    congrArg Host.Outcome.next (s.statusByte_of_famOf (famOf_statusByteOf_0xC0 ch)),
    congrArg Host.Outcome.next (s.statusByte_of_famOf (famOf_statusByteOf_0xD0 ch)),
    fun hr hp => ?_, fun hr hp => ?_, fun hinv hr => ?_⟩ <;>
    obtain ⟨hframe, hstay, hevent, hpend⟩ := hfacts hr
  · exact exec_rxData_oneByte d rfl hframe hp
  · exact exec_rxData_completes_silently d rfl hstay hevent hp
  · exact Bool.eq_false_iff.mpr fun hp => hpend (hinv.pend_legal hp)

theorem framingOf_terminus_systemCommon : ∀ f : Byte,
    f = 0xF0#8 ∨ f = 0xF1#8 ∨ f = 0xF4#8 ∨ f = 0xF5#8 ∨ f = 0xF6#8 ∨ f = 0xF7#8 → framingOf f = .terminus := by decide

/-- Settles O25: the byte is stored whole, and it is framed as a terminus. -/
theorem systemCommonTerminus : Obligations.SystemCommonTerminus := by
  unfold Obligations.SystemCommonTerminus
  intro s d
  refine ⟨by decide, ?_, ?_, ?_, ?_, ?_, ?_,
    fun hr hp => exec_rxData_terminus d rfl (framingOf_terminus_systemCommon s.rxs hr) hp⟩ <;>
    exact congrArg Host.Outcome.next (s.statusByte_of_famOf (by decide))

theorem framingOf_quirk : ∀ f : Byte, f = 0xF2#8 ∨ f = 0xF3#8 → framingOf f = .quirk := by decide

/-- Settles O26: the byte after the quirk is a second one under `NONE`, which stays and has no event. -/
theorem systemCommonQuirk : Obligations.SystemCommonQuirk := by
  unfold Obligations.SystemCommonQuirk
  intro s d
  exact ⟨by decide, by decide, congrArg Host.Outcome.next (s.statusByte_of_famOf (by decide)),
    congrArg Host.Outcome.next (s.statusByte_of_famOf (by decide)),
    fun hr hp => exec_rxData_quirk d rfl (framingOf_quirk s.rxs hr) hp,
    fun hr hp => exec_rxData_completes_silently d hr (by decide) (by decide) hp⟩

/-- Settles O27, the stray case of `State.dataByte`. -/
theorem strayData : Obligations.StrayData := by
  unfold Obligations.StrayData
  intro s d hr hp
  exact congrArg Host.Outcome.next (s.dataByte_stray d hp hr)

/-- Settles O11: each unit's step on `none`, and the turn that takes the `none` off its port. -/
theorem idleSteps : Obligations.IdleSteps := by
  unfold Obligations.IdleSteps
  refine ⟨decStep_none, encStep_none, fun s ts q hturns hrx => ?_, fun s ts q hturns hcmd => ?_⟩
  · rw [step_decoder_cons s ts none q hturns hrx, decStep_none]
  · rw [step_encoder_cons s ts none q hturns hcmd, encStep_none]

end Sys2Proof.Machine

namespace Sys2Proof.Machine

/-! ## The abstract machine (10_state.md rule R19, 41_decoder.md rule R160) -/

theorem dataOf_eq_setWidth : ∀ b : Byte, dataOf b = b.setWidth 7 := by decide

theorem eq_zero_iff_dataOf_eq_zero : ∀ b : Byte, b < 0x80#8 → (b = 0x00#8 ↔ dataOf b = 0x00#7) := by decide

theorem famOf_ne_none : ∀ b : Byte, 0x80#8 ≤ b → b ≤ 0xF7#8 → famOf b ≠ NONE := by decide

/-- Where `PEND` may be 1, a second data byte keeps `RXS`. -/
theorem secondStatus_of_mem_pendRxs : ∀ f : Byte, f ∈ pendRxs → secondStatus f = f := by decide

theorem lt_thresholds_of_data {b : Byte} (hb : b < 0x80#8) : ¬ 0xF8#8 ≤ b ∧ ¬ 0xF0#8 ≤ b ∧ ¬ 0x80#8 ≤ b :=
  ⟨by bv_omega, by bv_omega, by bv_omega⟩

section
variable {b : Byte} (hb : b < 0x80#8)
include hb

theorem AbsState.after_data_noStatus : AbsState.noStatus.after b = .noStatus := by
  simp [AbsState.after, lt_thresholds_of_data hb]

theorem AbsState.after_data_quirk : AbsState.quirk.after b = .noStatus := by
  simp [AbsState.after, lt_thresholds_of_data hb]

theorem AbsState.after_data_awaitingSecond (f : Byte) (d1 : Data) :
    (AbsState.awaitingSecond f d1).after b = .awaitingFirst f := by
  simp [AbsState.after, lt_thresholds_of_data hb]

/-- A first data byte moves the abstract machine by the framing of the running status. -/
theorem AbsState.after_data_awaitingFirst (f : Byte) :
    (AbsState.awaitingFirst f).after b =
      match framingOf f with
      | .twoBytes => .awaitingSecond f (dataOf b)
      | .oneByte => .awaitingFirst f
      | .quirk => .quirk
      | .terminus => .noStatus := by
  simp only [AbsState.after, lt_thresholds_of_data hb, if_false, framingOf, twoByteFamilies, oneByteFamilies,
    quirkStatuses, List.mem_cons, List.not_mem_nil, or_false, dataOf_eq_setWidth]
  split_ifs <;> rfl

theorem AbsState.signals_data_awaitingSecond (f : Byte) (d1 : Data) :
    (AbsState.awaitingSecond f d1).signals b = secondEvent f d1 (dataOf b) := by
  simp only [AbsState.signals, lt_thresholds_of_data hb, if_false, secondEvent, eq_zero_iff_dataOf_eq_zero b hb,
    ← dataOf_eq_setWidth]
  split_ifs <;> simp_all

theorem AbsState.signals_data_noStatus : AbsState.noStatus.signals b = .none := by
  simp [AbsState.signals, lt_thresholds_of_data hb]

theorem AbsState.signals_data_quirk : AbsState.quirk.signals b = .none := by
  simp [AbsState.signals, lt_thresholds_of_data hb]

theorem AbsState.signals_data_awaitingFirst (f : Byte) : (AbsState.awaitingFirst f).signals b = .none := by
  simp [AbsState.signals, lt_thresholds_of_data hb]

end

/-! The registers of each abstract state. -/

section
variable {s : State}

theorem State.abs_noStatus (hp : s.pend = false) (hr : s.rxs = NONE) : s.abs = .noStatus := by
  simp [State.abs, hp, hr]

theorem State.abs_awaitingFirst (hp : s.pend = false) (hr : s.rxs ≠ NONE) : s.abs = .awaitingFirst s.rxs := by
  simp [State.abs, hp, hr]

theorem State.abs_awaitingSecond (hp : s.pend = true) (hr : s.rxs ≠ NONE) : s.abs = .awaitingSecond s.rxs s.d1 := by
  simp [State.abs, hp, hr]

theorem State.abs_quirk (hp : s.pend = true) (hr : s.rxs = NONE) : s.abs = .quirk := by
  simp [State.abs, hp, hr]

end

/-- A completing data byte, with the invariant that `PEND` is 1 only where `RXS` stays. -/
theorem State.dataByte_second_refines {s : State} {b : Byte} (hb : b < 0x80#8) (hinv : s.Inv) (hp : s.pend = true) :
    (s.dataByte (dataOf b)).abs = s.abs.after b ∧ (s.dataByte (dataOf b)).ev = s.abs.signals b := by
  rw [s.dataByte_second (dataOf b) hp, State.secondData_eq]
  have hstay := secondStatus_of_mem_pendRxs s.rxs (hinv.pend_legal hp)
  by_cases hr : s.rxs = NONE
  · rw [State.abs_quirk hp hr, AbsState.after_data_quirk hb, AbsState.signals_data_quirk hb]
    have hevent : s.rxs ∉ eventFamilies := by
      rw [hr]
      decide
    exact ⟨State.abs_noStatus rfl (hstay.trans hr), secondEvent_eq_none hevent _ _⟩
  · rw [State.abs_awaitingSecond hp hr, AbsState.after_data_awaitingSecond hb, AbsState.signals_data_awaitingSecond hb]
    refine ⟨?_, rfl⟩
    rw [State.abs_awaitingFirst rfl (ne_of_eq_of_ne hstay hr)]
    exact congrArg AbsState.awaitingFirst hstay

/-- A first data byte, by the framing of the running status; a stray one stays stray. -/
theorem State.dataByte_first_refines {s : State} {b : Byte} (hb : b < 0x80#8) (hp : s.pend = false) :
    (s.dataByte (dataOf b)).abs = s.abs.after b ∧ (s.dataByte (dataOf b)).ev = s.abs.signals b := by
  rcases s.dataByte_cases (dataOf b) with
    ⟨hp', _⟩ | ⟨_, hr, k⟩ | ⟨_, hr, hf, k⟩ | ⟨_, hr, hf, k⟩ | ⟨_, hr, hf, k⟩ | ⟨_, hr, hf, k⟩
  · simp [hp] at hp'
  · rw [k, State.abs_noStatus hp hr, AbsState.after_data_noStatus hb, AbsState.signals_data_noStatus hb]
    exact ⟨State.abs_noStatus hp hr, rfl⟩
  all_goals
    rw [k, State.abs_awaitingFirst hp hr, AbsState.after_data_awaitingFirst hb, hf,
      AbsState.signals_data_awaitingFirst hb]
    refine ⟨?_, rfl⟩
  · exact State.abs_awaitingSecond rfl hr
  · exact State.abs_awaitingFirst hp hr
  · exact State.abs_quirk rfl rfl
  · exact State.abs_noStatus hp rfl

/-- Settles O34, by the class of the byte, and for a data byte by `PEND`. -/
theorem followsAbstractMachine : Obligations.FollowsAbstractMachine := by
  unfold Obligations.FollowsAbstractMachine
  intro s b hinv
  rcases decStep_byte_cases b s with ⟨hb, h⟩ | ⟨hlo, hhi, h⟩ | ⟨hb, h⟩ <;> refine ⟨_, h, ?_⟩
  · cases hp : s.pend with
    | true => exact State.dataByte_second_refines hb hinv hp
    | false => exact State.dataByte_first_refines hb hp
  · rw [AbsState.after_status _ b hlo hhi, AbsState.signals_status _ b hlo hhi]
    exact ⟨State.abs_awaitingFirst rfl (famOf_ne_none b hlo hhi), rfl⟩
  · rw [AbsState.after_realtime _ b hb, AbsState.signals_realtime _ b hb]
    exact ⟨rfl, rfl⟩

/-! ## Streams: what feeding them depends on -/

/-- `decStep_update` along a stream: `RXS`, `PEND` and `D1` decide what feeding it writes and which events it adds. -/
theorem feed_update (x : List (Option Byte)) (s : State) : ∃ rxs pend d1 es, ∀ t : State,
    t.rxs = s.rxs → t.pend = s.pend → t.d1 = s.d1 → ∃ e, feed x t = .next
      { t with rxs := rxs, pend := pend, d1 := d1, ev := e, evLog := t.evLog ++ es } := by
  induction x generalizing s with
  | nil =>
    refine ⟨s.rxs, s.pend, s.d1, [], fun t hrxs hpend hd1 => ⟨t.ev, ?_⟩⟩
    rw [← hrxs, ← hpend, ← hd1, List.append_nil]
    rfl
  | cons r x ih =>
    obtain ⟨rxs, pend, d1, e, hstep⟩ := decStep_update r s
    obtain ⟨rxs', pend', d1', es, hrest⟩ := ih ((((s.setRxs rxs).setPend pend).setD1 d1).signal e)
    refine ⟨rxs', pend', d1', e.logged ++ es, fun t hrxs hpend hd1 => ?_⟩
    obtain ⟨e', h⟩ := hrest ((((t.setRxs rxs).setPend pend).setD1 d1).signal e) rfl rfl rfl
    refine ⟨e', ?_⟩
    rw [feed_cons r x t _ (hstep t hrxs hpend hd1), h, ← List.append_assoc]
    rfl

/-- Rule R161, in front of a stream: the realtime byte adds its own event and nothing else. -/
theorem feed_realtime_cons (r : Byte) (x : List (Option Byte)) (s : State) (hr : 0xF8#8 ≤ r) :
    ∃ t u es, feed x s = .next t ∧ feed (some r :: x) s = .next u ∧ { u with ev := t.ev, evLog := t.evLog } = t ∧
      t.evLog = s.evLog ++ es ∧ u.evLog = s.evLog ++ (.realtime r :: es) := by
  obtain ⟨rxs, pend, d1, es, hfeed⟩ := feed_update x s
  obtain ⟨e, ht⟩ := hfeed s rfl rfl rfl
  obtain ⟨e', hu⟩ := hfeed { s with ev := .realtime r, evLog := s.evLog ++ [.realtime r] } rfl rfl rfl
  exact ⟨_, _, es, ht, (feed_cons (some r) x s _ (decStep_realtime r s hr)).trans hu, rfl, rfl,
    List.append_assoc _ _ _⟩

/-- Settles O35: after `pre` the decoder is in some state, and `feed_realtime_cons` speaks of every state. -/
theorem interleaveSafety : Obligations.InterleaveSafety := by
  unfold Obligations.InterleaveSafety
  intro r pre x s hr
  refine ⟨feed_realtime_cons r x s hr, ?_⟩
  obtain ⟨m, hm⟩ := feed_isNext pre s
  obtain ⟨t, u, es, ht, hu, hsame, htlog, hulog⟩ := feed_realtime_cons r x m hr
  refine ⟨t, u, (feed_append pre x s m hm).trans ht, (feed_append pre _ s m hm).trans hu, hsame, ?_⟩
  simp [htlog, hulog, Event.isChannel]

/-- Along a stream, a `D1` that `PEND` does not hold stays unread. -/
theorem SameButD1.feed {s t : State} (h : SameButD1 s t) (x : List (Option Byte)) :
    ∃ s' t', feed x s = .next s' ∧ feed x t = .next t' ∧ SameButD1 s' t' := by
  induction x generalizing s t with
  | nil => exact ⟨s, t, rfl, rfl, h⟩
  | cons r x ih =>
    obtain ⟨m, hm⟩ := decStep_isNext r s
    have hanswers := answersSameButD1_decStep h.held r
    rw [← h.eq_setD1] at hanswers
    obtain ⟨n, hn, hmn⟩ := hanswers m hm
    rw [feed_cons r x s m hm, feed_cons r x t n hn]
    exact ih hmn

/-- Settles O39: the status byte leaves the two states different in `D1` alone, with nothing pending. -/
theorem statusByteResynchronises : Obligations.StatusByteResynchronises := by
  unfold Obligations.StatusByteResynchronises
  intro b x s rxs pend d1 hlo hhi
  have hstart : SameButD1 { s with rxs := famOf b, pend := false, ev := .none }
      { s with rxs := famOf b, pend := false, d1 := d1, ev := .none } := ⟨rfl, nofun⟩
  obtain ⟨t, u, ht, hu, hsame⟩ := hstart.feed (x.map some)
  refine ⟨t, u, (feed_cons _ _ _ _ (decStep_status b s hlo hhi)).trans ht,
    (feed_cons _ _ _ _ (decStep_status b _ hlo hhi)).trans hu, ?_⟩
  rw [hsame.eq_setD1]
  exact ⟨rfl, rfl, rfl, rfl⟩

/-! ## When channel events come (41_decoder.md rule R162, rule R163) -/

theorem decStep_some_evLog {b : Byte} {s t : State} (h : decStep (some b) s = .next t) :
    t.evLog = s.evLog ++ t.ev.logged := by
  obtain ⟨_, _, _, _, rfl⟩ := exec_frame_of_isRx (decodeByte_isRx b) h
  rfl

theorem State.dataByte_isChannel (s : State) (d : Data) : (s.dataByte d).ev.isChannel = true ↔
    s.pend = true ∧ s.rxs ∈ eventFamilies := by
  rcases s.dataByte_cases d with
    ⟨hp, k⟩ | ⟨hp, _, k⟩ | ⟨hp, _, _, k⟩ | ⟨hp, _, _, k⟩ | ⟨hp, _, _, k⟩ | ⟨hp, _, _, k⟩ <;> rw [k]
  · simp only [secondEvent_isChannel, hp, true_and]
  all_goals simp [hp, Event.isChannel]

theorem decStep_some_isChannel {b : Byte} {s t : State} (h : decStep (some b) s = .next t) :
    t.ev.isChannel = true ↔ b ≤ 0x7F#8 ∧ s.pend = true ∧ s.rxs ∈ eventFamilies := by
  rcases decStep_byte_cases b s with ⟨hb, k⟩ | ⟨hb, _, k⟩ | ⟨hb, k⟩ <;>
    obtain rfl := Host.Outcome.next.inj (k.symm.trans h)
  · have hdata : b ≤ 0x7F#8 := by bv_omega
    simp only [State.dataByte_isChannel, hdata, true_and]
  all_goals
    have hstatus : ¬ b ≤ 0x7F#8 := by bv_omega
    simp [hstatus, State.statusByte, State.rtByte, Event.isChannel]

/-- Rule R162: a status byte with the two data bytes of its message records the family's one event. -/
theorem feedBytes_message (st : Byte) (n v : Data) (s : State) (hst : isChannelStatus st = true)
    (hfam : st &&& 0xF0#8 ∈ eventFamilies) :
    ∃ t e, feedBytes [st, dataByteOf n, dataByteOf v] s = .next t ∧ e.isChannel = true ∧ t.evLog = s.evLog ++ [e] := by
  have he := (secondEvent_isChannel (st &&& 0xF0#8) n v).mpr hfam
  have htwo : st &&& 0xF0#8 ∈ twoByteFamilies := by
    have hsub : eventFamilies ⊆ twoByteFamilies := by decide
    exact hsub hfam
  refine ⟨_, _, (feed_cons _ _ s _ (decStep_channelStatus st s hst)).trans (feedBytes_two _ n v rfl htwo), he, ?_⟩
  rw [← Event.logged_of_isChannel he]

/-- Settles O36: a byte signals a channel event as the second data byte under a family with one; an empty poll signals
`EV_NONE`. -/
theorem exactlyOnceDispatch : Obligations.ExactlyOnceDispatch := by
  unfold Obligations.ExactlyOnceDispatch
  refine ⟨fun b s t h => ⟨decStep_some_isChannel h, decStep_some_evLog h⟩, fun s t h => ?_, feedBytes_message⟩
  obtain rfl := Host.Outcome.next.inj ((decStep_none s).symm.trans h)
  rfl

/-! A running status that is no channel family stays none, and has no event. -/

theorem secondStatus_and_event_of_not_channel : ∀ f : Byte, isChannelStatus f = false →
    isChannelStatus (secondStatus f) = false ∧ f ∉ eventFamilies := by decide

theorem State.dataByte_not_channel (s : State) (d : Data) (h : isChannelStatus s.rxs = false) :
    isChannelStatus (s.dataByte d).rxs = false ∧ (s.dataByte d).evLog = s.evLog := by
  obtain ⟨hsecond, hevent⟩ := secondStatus_and_event_of_not_channel s.rxs h
  rcases s.dataByte_cases d with
    ⟨_, k⟩ | ⟨_, _, k⟩ | ⟨_, _, _, k⟩ | ⟨_, _, _, k⟩ | ⟨_, _, _, k⟩ | ⟨_, _, _, k⟩ <;> rw [k]
  · exact ⟨hsecond, by simp [secondEvent_eq_none hevent]⟩
  · exact ⟨h, rfl⟩
  · exact ⟨h, rfl⟩
  · exact ⟨h, rfl⟩
  · exact ⟨rfl, rfl⟩
  · exact ⟨rfl, rfl⟩

/-- `fam` keeps a system-common status byte whole (30_encoding.md rule R64). -/
theorem isChannelStatus_famOf_systemCommon : ∀ b : Byte, 0xF0#8 ≤ b → b ≤ 0xF7#8 →
    isChannelStatus (famOf b) = false := by decide

theorem decStep_not_channel (c : Byte) (s : State) (h : isChannelStatus s.rxs = false)
    (hc : isChannelStatus c = false) :
    ∃ t, decStep (some c) s = .next t ∧ isChannelStatus t.rxs = false ∧
      t.evLog = s.evLog ++ ([c].filter isRealtimeByte).map Event.realtime := by
  rcases decStep_byte_cases c s with ⟨hb, k⟩ | ⟨hlo, hhi, k⟩ | ⟨hb, k⟩ <;> refine ⟨_, k, ?_⟩
  · have hrt : isRealtimeByte c = false := decide_eq_false (by bv_omega)
    obtain ⟨hrxs, hlog⟩ := s.dataByte_not_channel (dataOf c) h
    exact ⟨hrxs, by simp [hlog, hrt]⟩
  · have hrt : isRealtimeByte c = false := decide_eq_false (by bv_omega)
    have hsys : 0xF0#8 ≤ c := by
      by_contra hn
      have hchannel := (isChannelStatus_iff c).mpr ⟨hlo, by bv_omega⟩
      simp [hc] at hchannel
    exact ⟨isChannelStatus_famOf_systemCommon c hsys hhi, by simp [State.statusByte, hrt]⟩
  · have hrt : isRealtimeByte c = true := decide_eq_true hb
    exact ⟨h, by simp [State.rtByte, hrt]⟩

theorem feedBytes_not_channel (x : List Byte) (s : State) (h : isChannelStatus s.rxs = false)
    (hx : ∀ c ∈ x, isChannelStatus c = false) :
    ∃ t, feedBytes x s = .next t ∧ t.evLog = s.evLog ++ (x.filter isRealtimeByte).map Event.realtime := by
  induction x generalizing s with
  | nil => exact ⟨s, rfl, by simp⟩
  | cons c x ih =>
    obtain ⟨hc, hrest⟩ := List.forall_mem_cons.mp hx
    obtain ⟨m, hm, hmrxs, hmlog⟩ := decStep_not_channel c s h hc
    obtain ⟨t, ht, htlog⟩ := ih m hmrxs hrest
    refine ⟨t, (feed_cons (some c) (x.map some) s m hm).trans ht, ?_⟩
    rw [htlog, hmlog, List.append_assoc, ← List.map_append, ← List.filter_append, List.singleton_append]

/-- Settles O37: the system-common byte leaves a running status that is no channel family, and records nothing. -/
theorem noEventUnderSystemCommon : Obligations.NoEventUnderSystemCommon := by
  unfold Obligations.NoEventUnderSystemCommon
  intro b x s hlo hhi hx
  have hstep := decStep_status b s (by bv_omega) hhi
  obtain ⟨t, ht, hlog⟩ := feedBytes_not_channel x { s with rxs := famOf b, pend := false, ev := .none }
    (isChannelStatus_famOf_systemCommon b hlo hhi) hx
  exact ⟨t, (feed_cons (some b) (x.map some) s _ hstep).trans ht, hlog⟩

end Sys2Proof.Machine

namespace Sys2Proof.Machine

/-! ## Where refusals and bytes come from (60_exceptions.md rule R184, rule R186) -/

/-- Everything a step can do, by the turn at the head: a decoder step, also where nothing is scheduled; an encoder step on
what stands next on `cmd`; a reset; or a refusal (00_scope.md rule R6). -/
theorem step_cases (s : State) :
    (∃ r ts q, (s.turns.head? = none ∨ s.turns.head? = some .decoder) ∧
      step s = decStep r { s with turns := ts, rxIn := q }) ∨
    (s.turns.head? = some .encoder ∧
      step s = encStep s.cmdIn.head?.join { s with turns := s.turns.tail, cmdIn := s.cmdIn.tail }) ∨
    (s.turns.head? = some .reset ∧ step s = .next { s with turns := s.turns.tail }.resetBlock) ∨
    (s.turns.head? = some .nestedDecoder ∧ step s = .refused .reentrantDecode) := by
  cases hturns : s.turns with
  | nil => exact .inl ⟨none, s.turns, s.rxIn, .inl rfl, (step_empty s hturns).trans (decStep_none s).symm⟩
  | cons turn ts =>
    cases turn with
    | decoder =>
      cases hrx : s.rxIn with
      | nil => exact .inl ⟨none, ts, s.rxIn, .inr rfl,
          (step_decoder_nil s ts hturns hrx).trans (decStep_none { s with turns := ts }).symm⟩
      | cons r q => exact .inl ⟨r, ts, q, .inr rfl, step_decoder_cons s ts r q hturns hrx⟩
    | encoder =>
      refine .inr (.inl ⟨rfl, ?_⟩)
      cases hcmd : s.cmdIn with
      | nil =>
        simp [step_encoder_nil s ts hturns hcmd, encStep, State.idleCommand_eq, hcmd]
      | cons c q => exact step_encoder_cons s ts c q hturns hcmd
    | reset => exact .inr (.inr (.inl ⟨rfl, step_reset s ts hturns⟩))
    | nestedDecoder => exact .inr (.inr (.inr ⟨rfl, step_nested s ts hturns⟩))

theorem encStep_ne_fault (c : Option Word24) (s : State) (f : Fault) : encStep c s ≠ .fault f := by
  rcases encStep_update c s with ⟨_, k⟩ | ⟨_, _, k⟩
  · simp [k]
  · simp [k s rfl rfl]

/-- Rule R74: a reserved op is all an encoder step refuses. -/
theorem encStep_eq_refused_iff (c : Option Word24) (s : State) (r : Refusal) : encStep c s = .refused r ↔
    ∃ w, r = .reservedCommandOp (opOf w) ∧ c = some w ∧ (opOf w = 0x2#4 ∨ opOf w = 0x4#4 ∨ opOf w = 0xD#4) := by
  cases c with
  | none => simp [encStep]
  | some w =>
    by_cases hop : opOf w = 0x2#4 ∨ opOf w = 0x4#4 ∨ opOf w = 0xD#4
    · simp [encStep_error (decodeCommand_reserved hop), refusalOf, hop, eq_comm (a := r)]
    · obtain ⟨i, hi⟩ := decodeCommand_isOk hop
      obtain ⟨t, ht⟩ := exec_isNext i s
      simp [encStep_ok hi, ht, hop]

/-- Settles O15: a decoder step and a reset always complete, the nested step is refused as such, and an encoder step is
refused for a reserved op alone. -/
theorem refusesExactlyTwoCases : Obligations.RefusesExactlyTwoCases := by
  unfold Obligations.RefusesExactlyTwoCases
  intro s
  rcases step_cases s with ⟨r, ts, q, hturn, k⟩ | ⟨hturn, k⟩ | ⟨hturn, k⟩ | ⟨hturn, k⟩
  · obtain ⟨t, ht⟩ := decStep_isNext r { s with turns := ts, rxIn := q }
    rcases hturn with hturn | hturn <;> simp [k, ht, hturn]
  · rw [k]
    exact ⟨encStep_ne_fault _ _, by simp [encStep_eq_refused_iff, hturn, Option.join_eq_some_iff]⟩
  · simp [k, hturn]
  · simp [k, hturn, eq_comm]

theorem decStep_txLog {r : Option Byte} {s t : State} (h : decStep r s = .next t) : t.txLog = s.txLog := by
  obtain ⟨_, _, _, _, k⟩ := decStep_update r s
  obtain rfl := Host.Outcome.next.inj ((k s rfl rfl rfl).symm.trans h)
  rfl

/-- An encoder step appends to the output stream, and an idle one appends nothing (40_encoder.md rule R120). -/
theorem encStep_txLog {c : Option Word24} {s t : State} (h : encStep c s = .next t) :
    ∃ bs, t.txLog = s.txLog ++ bs ∧ (bs ≠ [] → ∃ w, c = some w) := by
  cases c with
  | none =>
    obtain rfl := Host.Outcome.next.inj h
    exact ⟨[], rfl, nofun⟩
  | some w =>
    rcases encStep_update (some w) s with ⟨_, k⟩ | ⟨_, bs, k⟩
    · simp [k] at h
    · obtain rfl := Host.Outcome.next.inj ((k s rfl rfl).symm.trans h)
      exact ⟨bs, rfl, fun _ => ⟨w, rfl⟩⟩

/-- Settles O54: only an encoder step on a command word makes the output stream grow. -/
theorem bytesAnswerCommands : Obligations.BytesAnswerCommands := by
  unfold Obligations.BytesAnswerCommands
  intro s t h
  rcases step_cases s with ⟨r, ts, q, _, k⟩ | ⟨hturn, k⟩ | ⟨_, k⟩ | ⟨_, k⟩ <;> rw [k] at h
  · exact ⟨[], by simp [decStep_txLog h], nofun⟩
  · obtain ⟨bs, hlog, hword⟩ := encStep_txLog h
    refine ⟨bs, hlog, fun hbs => ⟨hturn, ?_⟩⟩
    obtain ⟨w, hw⟩ := hword hbs
    exact ⟨w, List.head?_eq_some_iff.mp (Option.join_eq_some_iff.mp hw)⟩
  · obtain rfl := Host.Outcome.next.inj h
    exact ⟨[], by simp, nofun⟩
  · cases h

end Sys2Proof.Machine

namespace Sys2Proof.Machine

/-! ## The reset step (70_reset_and_hazards.md rule R200, rule R202) -/

/-- Settles O12: `resetBlock` writes the reset values over whatever the registers held. -/
theorem resetAction : Obligations.ResetAction := by
  unfold Obligations.ResetAction
  intro s ts hturns
  exact ⟨_, step_reset s ts hturns, rfl, rfl, rfl, rfl, rfl⟩

/-- Settles O13: `resetBlock` writes no record, queue or configuration, and is idempotent. -/
theorem resetSilentAndIdempotent : Obligations.ResetSilentAndIdempotent := by
  unfold Obligations.ResetSilentAndIdempotent
  intro s ts hturns
  refine ⟨_, step_reset s ts hturns, rfl, rfl, rfl, rfl, rfl, rfl, rfl, rfl, fun ts' hts => ?_⟩
  rw [step_reset _ ts' hts]
  exact congrArg Host.Outcome.next (State.resetBlock_idem { s with turns := ts' })

/-! ## The decoder before the first status byte (rule R203) -/

/-- With no status and nothing pending, a data byte is stray and a realtime byte only signals itself. -/
theorem decStep_noStatus (c : Byte) (s : State) (hr : s.rxs = NONE) (hp : s.pend = false)
    (hc : c ≤ 0x7F#8 ∨ 0xF8#8 ≤ c) :
    ∃ e, decStep (some c) s = .next
      { s with ev := e, evLog := s.evLog ++ ([c].filter isRealtimeByte).map Event.realtime } := by
  rcases hc with hdata | hrt
  · have hfilter : isRealtimeByte c = false := decide_eq_false (by bv_omega)
    refine ⟨.none, ?_⟩
    rw [decStep_data c s (by bv_omega), State.dataByte_stray s _ hp hr]
    simp [hfilter]
  · have hfilter : isRealtimeByte c = true := decide_eq_true hrt
    refine ⟨.realtime c, ?_⟩
    rw [decStep_realtime c s hrt]
    simp [hfilter]

/-- So a stream of data and realtime bytes writes the event port and its record alone. -/
theorem feedBytes_noStatus (x : List Byte) (s : State) (hr : s.rxs = NONE) (hp : s.pend = false)
    (hx : ∀ c ∈ x, c ≤ 0x7F#8 ∨ 0xF8#8 ≤ c) :
    ∃ e, feedBytes x s = .next
      { s with ev := e, evLog := s.evLog ++ (x.filter isRealtimeByte).map Event.realtime } := by
  induction x generalizing s with
  | nil => exact ⟨s.ev, congrArg Host.Outcome.next (by simp)⟩
  | cons c x ih =>
    obtain ⟨hc, hrest⟩ := List.forall_mem_cons.mp hx
    obtain ⟨e, hstep⟩ := decStep_noStatus c s hr hp hc
    obtain ⟨e', hfeed⟩ := ih
      { s with ev := e, evLog := s.evLog ++ ([c].filter isRealtimeByte).map Event.realtime } hr hp hrest
    refine ⟨e', (feed_cons (some c) (x.map some) s _ hstep).trans (hfeed.trans ?_)⟩
    rw [List.append_assoc, ← List.map_append, ← List.filter_append, List.singleton_append]

/-- Settles O38: a reset leaves the decoder with no status and nothing pending. -/
theorem discardAfterReset : Obligations.DiscardAfterReset := by
  unfold Obligations.DiscardAfterReset
  intro x s hx
  obtain ⟨_, h⟩ := feedBytes_noStatus x s.resetBlock rfl rfl hx
  exact ⟨_, h, rfl, rfl, rfl, rfl⟩

/-! ## What becomes of `TXS` (rule R201, rule R204, rule R208) -/

/-- `NONE` differs from every status byte a command sends (10_state.md rule R24). -/
theorem txStatus_ne_none {i : Instr} {st : Byte} (h : i.txStatus = some st) : st ≠ NONE := by
  rintro rfl
  cases isChannelStatus_txStatus i NONE h

/-- An instruction that sends no status byte keeps `TXS`. -/
theorem exec_txs_of_txStatus_none {i : Instr} {s t : State} (hi : i.txStatus = none) (h : exec i s = .next t) :
    t.txs = s.txs := by
  cases hrx : i.isRx with
  | true =>
    obtain ⟨_, _, _, _, rfl⟩ := exec_frame_of_isRx hrx h
    rfl
  | false =>
    obtain ⟨_, rfl⟩ := exec_frame_of_not_isRx hrx h
    simp [hi]

theorem runInstrs_txs_of_txStatus_none (is : List Instr) (s : State) (h : ∀ i ∈ is, i.txStatus = none) :
    ∃ t, runInstrs is s = .next t ∧ t.txs = s.txs := by
  induction is generalizing s with
  | nil => exact ⟨s, rfl, rfl⟩
  | cons i is ih =>
    obtain ⟨hi, his⟩ := List.forall_mem_cons.mp h
    obtain ⟨m, hm⟩ := exec_isNext i s
    obtain ⟨t, ht, htxs⟩ := ih m his
    exact ⟨t, (runAll_cons exec i is s m hm).trans ht, htxs.trans (exec_txs_of_txStatus_none hi hm)⟩

/-- Settles O50: `TXS` is still `NONE` when the channel command compares its status byte with it. -/
theorem fullStatusAfterReset : Obligations.FullStatusAfterReset := by
  unfold Obligations.FullStatusAfterReset
  intro i before st s hi hbefore
  obtain ⟨t, ht, htxs⟩ := runInstrs_txs_of_txStatus_none before s.resetBlock hbefore
  obtain ⟨data, _, _, hexec⟩ := exec_of_txStatus hi t
  have hne : t.txs ≠ st := fun h => txStatus_ne_none hi (h.symm.trans htxs)
  exact ⟨t, _, ht, hexec, by simp [hne]⟩

/-- The decoder writes neither `TXS` nor the configuration. -/
theorem decStep_txs_cfg {r : Option Byte} {s t : State} (h : decStep r s = .next t) :
    t.txs = s.txs ∧ t.cfg = s.cfg := by
  obtain ⟨_, _, _, _, k⟩ := decStep_update r s
  obtain rfl := Host.Outcome.next.inj ((k s rfl rfl rfl).symm.trans h)
  exact ⟨rfl, rfl⟩

/-- The encoder writes to `TXS` nothing but the status byte of a command, and the configuration never. -/
theorem encStep_txs_cfg {c : Option Word24} {s t : State} (h : encStep c s = .next t) :
    (t.txs = s.txs ∨ ∃ i : Instr, i.txStatus = some t.txs) ∧ t.cfg = s.cfg := by
  rcases encStep_cases c s with ⟨_, k⟩ | ⟨_, _, _, _, k⟩ | ⟨_, i, _, hi, k⟩ <;> rw [k] at h
  · obtain rfl := Host.Outcome.next.inj h
    exact ⟨.inl rfl, rfl⟩
  · cases h
  · obtain ⟨_, rfl⟩ := exec_frame_of_not_isRx (isRx_eq_false_of_decodeCommand hi) h
    refine ⟨?_, rfl⟩
    cases hst : i.txStatus with
    | none => exact .inl rfl
    | some st => exact .inr ⟨i, hst⟩

/-- Settles O56, by the turn: the decoder keeps `TXS`, and the encoder keeps it or writes a status byte. -/
theorem onlyResetClearsTxs : Obligations.OnlyResetClearsTxs := by
  unfold Obligations.OnlyResetClearsTxs
  intro s t h
  rcases step_cases s with ⟨r, ts, q, _, k⟩ | ⟨_, k⟩ | ⟨hturn, k⟩ | ⟨_, k⟩ <;> rw [k] at h
  · obtain ⟨htxs, hcfg⟩ := decStep_txs_cfg h
    exact ⟨hcfg, fun _ hs => htxs ▸ hs⟩
  · obtain ⟨htxs | ⟨i, hst⟩, hcfg⟩ := encStep_txs_cfg h
    · exact ⟨hcfg, fun _ hs => htxs ▸ hs⟩
    · exact ⟨hcfg, fun _ _ => txStatus_ne_none hst⟩
  · obtain rfl := Host.Outcome.next.inj h
    exact ⟨rfl, fun hreset => absurd hturn hreset⟩
  · cases h

/-! ## A mod-wheel value at a decoder (rule R210) -/

/-- Where the encoder sends the status byte `st`, any decoder takes up its family; where `st` is elided, the decoder must
hold the family already. -/
theorem feedBytes_status_or_elided {enc dec : State} {st : Byte} (hst : isChannelStatus st = true)
    (helided : enc.txs = st → dec.rxs = famOf st ∧ dec.pend = false) :
    ∃ u, feedBytes (if enc.txs = st then [] else [st]) dec = .next u ∧ u.rxs = famOf st ∧ u.pend = false ∧
      u.evLog = dec.evLog := by
  by_cases h : enc.txs = st
  · obtain ⟨hrxs, hpend⟩ := helided h
    rw [if_pos h]
    exact ⟨dec, rfl, hrxs, hpend, rfl⟩
  · obtain ⟨hlo, hhi⟩ := (isChannelStatus_iff st).mp hst
    rw [if_neg h]
    exact ⟨_, feed_cons (some st) [] dec _ (decStep_status st dec hlo (by bv_omega)), rfl, rfl, rfl⟩

/-- Running status carries over from one control change to the next (41_decoder.md rule R145). -/
theorem feedBytes_two_controlChanges (s : State) (c v c' v' : Data) (hrxs : s.rxs = 0xB0#8) (hpend : s.pend = false) :
    ∃ u, feedBytes [dataByteOf c, dataByteOf v, dataByteOf c', dataByteOf v'] s = .next u ∧
      u.evLog = s.evLog ++ [.controlChange c v, .controlChange c' v'] := by
  have hfam : s.rxs ∈ twoByteFamilies := by simp [hrxs, twoByteFamilies]
  have hfirst := feedBytes_two s c v hpend hfam
  refine ⟨_, (feedBytes_append _ [dataByteOf c', dataByteOf v'] s _ hfirst).trans
    (feedBytes_two _ c' v' rfl hfam), ?_⟩
  simp [hrxs, secondEvent]

/-- Settles O60: the status byte, sent or held, puts the decoder under the control-change family, and the four data bytes
are two messages of it. -/
theorem modWheelArrivesAsTwoControlChanges : Obligations.ModWheelArrivesAsTwoControlChanges := by
  unfold Obligations.ModWheelArrivesAsTwoControlChanges
  intro s d ch v helided
  have hstatus := isChannelStatus_txStatus (.modWheel ch v) (statusByteOf 0xB0#8 ch) rfl
  obtain ⟨m, hm, hrxs, hpend, hmlog⟩ := feedBytes_status_or_elided (enc := s) (dec := d) hstatus
    (by rwa [famOf_statusByteOf_0xB0])
  obtain ⟨u, hu, hulog⟩ := feedBytes_two_controlChanges m s.cfg.modLsbCc (v.extractLsb' 0 7) s.cfg.modMsbCc
    (v.extractLsb' 7 7) (hrxs.trans (famOf_statusByteOf_0xB0 ch)) hpend
  refine ⟨_, u, exec_modWheel ch v s, ?_, hmlog ▸ hulog⟩
  rw [State.afterSend_txOut, feedBytes_append _ _ d m hm, lsbOf_eq, msbOf_eq, hu]

end Sys2Proof.Machine
